-- ==== Sys2Proof/Word.lean ====
section
/-! DEFINITION. The widths of the Comp-Processor core (00_scope.md R8): the types of its registers, words, register
numbers, operand fields and memory addresses. -/

namespace Sys2Proof

/-- A general register, a data-memory cell, a pc-tag or the PC as the core reads it: 8 bits (R8). Where the spec reads
one as `int8` it is `toInt`, where it reads one as `uint8` it is `toNat` (R11; log 8). -/
abbrev Byte := BitVec 8

/-- An instruction-memory word: 16 bits (R8, R39). -/
abbrev Word := BitVec 16

/-- A register number, 0 to 63 (R20, R84). -/
abbrev RegNum := Fin 64

/-- The operand field `value2`: the six bits 5:0 of an instruction word. The integer the spec calls `value2`, in -32 to 31,
is its `toInt` (R83). -/
abbrev Value2 := BitVec 6

/-- The opcode field: the four bits 15:12 of an instruction word (R81). -/
abbrev Opcode := BitVec 4

/-- An address of instruction memory: 0 to 1023 (R60). -/
abbrev ImAddr := Fin 1024

/-- An address of data memory: 0 to 2047 (R60). -/
abbrev DmAddr := Fin 2048

end Sys2Proof
end

