-- ==== Sys2Proof/Syntax.lean ====
section
/-! DEFINITION. The syntax: the instructions (one constructor for each row of spec/opcode_table.json), the decoded
instruction record the latches carry (10_state.md R35), and the assembler's lines (30_encoding.md R93). -/

namespace Sys2Proof

/-- The instructions. `rd` is operand1 (R84) and `value2` the operand field of R83, whose role R85 gives by opcode. -/
inductive Instr where
  /-- `ADD Rd Rs`, opcode 0 (R130). -/
  | add (rd : RegNum) (value2 : Value2)
  /-- `SUB Rd Rs`, opcode 1 (R131). -/
  | sub (rd : RegNum) (value2 : Value2)
  /-- `MUL Rd Rs`, opcode 2 (R132). -/
  | mul (rd : RegNum) (value2 : Value2)
  /-- `MOVI Rd imm`, opcode 3 (R150). -/
  | movi (rd : RegNum) (value2 : Value2)
  /-- `BEQZ Rd imm`, opcode 4 (R160). -/
  | beqz (rd : RegNum) (value2 : Value2)
  /-- `ANDI Rd imm`, opcode 5 (R140). -/
  | andi (rd : RegNum) (value2 : Value2)
  /-- `EOR Rd Rs`, opcode 6 (R141). -/
  | eor (rd : RegNum) (value2 : Value2)
  /-- `BR Rd Rs`, opcode 7 (R161). -/
  | br (rd : RegNum) (value2 : Value2)
  /-- `SAL Rd imm`, opcode 8 (R142). -/
  | sal (rd : RegNum) (value2 : Value2)
  /-- `SAR Rd imm`, opcode 9 (R143). -/
  | sar (rd : RegNum) (value2 : Value2)
  /-- `LDR Rd addr`, opcode 10 (R151). -/
  | ldr (rd : RegNum) (value2 : Value2)
  /-- `STR Rd addr`, opcode 11 (R152). -/
  | str (rd : RegNum) (value2 : Value2)
  /-- Reserved opcode 12 (R162). The fields are kept, not read. -/
  | reserved12 (operand1 : RegNum) (value2 : Value2)
  /-- Reserved opcode 13 (R162). -/
  | reserved13 (operand1 : RegNum) (value2 : Value2)
  /-- Reserved opcode 14 (R162). -/
  | reserved14 (operand1 : RegNum) (value2 : Value2)
  /-- Reserved opcode 15 (R162), every word `1111…` but 0xFFFF. -/
  | reserved15 (operand1 : RegNum) (value2 : Value2)
  /-- The sentinel word 0xFFFF (R90, R103): the fetch-step acts on it, no record is ever made of it. -/
  | sentinel
deriving DecidableEq, Repr

/-- The type tag of a decoded instruction (R86). It has no effect on execution (R87). -/
inductive InstrType where
  /-- Register and register. -/
  | R
  /-- Register and immediate or address. -/
  | I
deriving DecidableEq, Repr

/-- A decoded instruction record, the payload of L2, L3 and L4 (R35). -/
structure DecodedRecord where
  /-- `opcode`, 0 to 15. -/
  opcode : Opcode
  /-- `operand1`, 0 to 63. -/
  operand1 : RegNum
  /-- `value2`, -32 to 31 as its `toInt`. -/
  value2 : Value2
  /-- `type`. -/
  type : InstrType
deriving DecidableEq, Repr

/-- The twelve mnemonics the assembler knows (R94). None exists for opcodes 12 to 15. -/
inductive Mnemonic where
  | ADD | SUB | MUL | MOVI | BEQZ | ANDI | EOR | BR | SAL | SAR | LDR | STR
deriving DecidableEq, Repr

/-- An operand of an assembly line as it is written (R93): `R<index>`, or a bare signed decimal. -/
inductive AsmOperand where
  /-- `R<index>`. -/
  | reg (index : Nat)
  /-- A bare signed decimal. -/
  | dec (value : Int)
deriving DecidableEq, Repr

/-- One line `MNEMONIC OPERAND1 OPERAND2` of an assembly program (R93), without its spelling (R6). -/
structure AsmLine where
  mnemonic : Mnemonic
  operand1 : AsmOperand
  operand2 : AsmOperand
deriving DecidableEq, Repr

end Sys2Proof
end

