-- ==== Sys2Proof/Decode.lean ====
section
/-! DEFINITION. The decoder (30_encoding.md R82 to R91) and the encoder (R97). The decoder is a pure function of the word and
never fails on a 16-bit word (R82, R91); only a list of words that has no word left is rejected, by name. -/

namespace Sys2Proof

/-- The sentinel word 0xFFFF (R90). -/
def sentinelWord : Word := 0xFFFF

/-- Bits 15:12, the opcode (R81). -/
def opcodeField (w : Word) : Opcode := w.extractLsb' 12 4

/-- Bits 11:6, operand1 read unsigned (R84). -/
def operand1Field (w : Word) : RegNum := (w.extractLsb' 6 6).toFin

/-- Bits 5:0, value2 (R83). -/
def value2Field (w : Word) : Value2 := w.extractLsb' 0 6

/-- `typeOf` (R86): R for 0, 1, 2, 6, 7 and for the reserved 12 to 15, I for the others. -/
def typeOf (op : Opcode) : InstrType :=
  match op.toNat with
  | 3 | 4 | 5 | 8 | 9 | 10 | 11 => .I
  | _ => .R

/-- The decoder of the decode-step (R82). -/
def decodeRecord (w : Word) : DecodedRecord :=
  { opcode := opcodeField w, operand1 := operand1Field w, value2 := value2Field w, type := typeOf (opcodeField w) }

/-- The instruction an opcode selects, with its operands (R88, R110). -/
def instrOf (op : Opcode) (d : RegNum) (v : Value2) : Instr :=
  match op.toNat with
  | 0 => .add d v
  | 1 => .sub d v
  | 2 => .mul d v
  | 3 => .movi d v
  | 4 => .beqz d v
  | 5 => .andi d v
  | 6 => .eor d v
  | 7 => .br d v
  | 8 => .sal d v
  | 9 => .sar d v
  | 10 => .ldr d v
  | 11 => .str d v
  | 12 => .reserved12 d v
  | 13 => .reserved13 d v
  | 14 => .reserved14 d v
  | _ => .reserved15 d v

/-- The instruction a record dispatches as: by its opcode alone (R110), the type tag is not read (R87). -/
def DecodedRecord.instr (r : DecodedRecord) : Instr :=
  instrOf r.opcode r.operand1 r.value2

/-- The instruction a word is: the sentinel before anything else (R90), else what its record dispatches as (R88). -/
def decode (w : Word) : Instr :=
  if w = sentinelWord then .sentinel else (decodeRecord w).instr

/-- The packing of three fields into a word, most significant first (R81, R97). -/
def packWord (op : Opcode) (d : RegNum) (v : Value2) : Word :=
  op ++ (BitVec.ofFin d : BitVec 6) ++ v

/-- The encoder: the word of an instruction (R97; for the reserved opcodes the layout of R81; the sentinel word of R90). -/
def encode : Instr → Word
  | .add d v => packWord 0 d v
  | .sub d v => packWord 1 d v
  | .mul d v => packWord 2 d v
  | .movi d v => packWord 3 d v
  | .beqz d v => packWord 4 d v
  | .andi d v => packWord 5 d v
  | .eor d v => packWord 6 d v
  | .br d v => packWord 7 d v
  | .sal d v => packWord 8 d v
  | .sar d v => packWord 9 d v
  | .ldr d v => packWord 10 d v
  | .str d v => packWord 11 d v
  | .reserved12 d v => packWord 12 d v
  | .reserved13 d v => packWord 13 d v
  | .reserved14 d v => packWord 14 d v
  | .reserved15 d v => packWord 15 d v
  | .sentinel => sentinelWord

/-- Why a list of words gives no instruction. -/
inductive DecodeReject where
  /-- There is no word left. -/
  | noWord
  /-- A number of bits that is not one 16-bit word (R80: there are no length variants). -/
  | notOneWord
deriving DecidableEq, Repr

/-- The next instruction of a list of words, and the rest: always exactly one word (R80). -/
def decodeNext : List Word → Except DecodeReject (Instr × List Word)
  | [] => .error .noWord
  | w :: rest => .ok (decode w, rest)

/-- The one word an `nbits`-bit number spells; the core stores a word whole, so there is no byte order (R67; log 19). -/
def tableWords (nbits w : Nat) : Except DecodeReject (List Word) :=
  if nbits = 16 then .ok [BitVec.ofNat 16 w] else .error .notOneWord

/-- The instruction the decoder reads from a table row's bits. -/
def decodeTableWord (nbits w : Nat) : Option Instr :=
  match tableWords nbits w with
  | .error _ => none
  | .ok ws =>
    match decodeNext ws with
    | .ok (i, []) => some i
    | .ok (_, _ :: _) => none
    | .error _ => none

end Sys2Proof
end

