-- ==== Sys2Proof/Config.lean ====
section
/-! DEFINITION. What the spec leaves open: its open parameters `V2_REG_INDEX` and `MAX_TICKS` (00_scope.md R9) and the values
it calls unspecified. The free values have no body, so nothing can be proved of them. -/

namespace Sys2Proof

/-- The two values of the open parameter `V2_REG_INDEX` (R9, R92): what a negative `value2` used as a register index does.
The parameter itself is carried in `State.v2RegIndex`, a constant of the machine that no operation writes
(DESIGN CHOICE, log 2). -/
inductive V2RegIndex where
  /-- The instruction raises `ModelFault(V2RegIndexNegative)`. The spec's default (D6). -/
  | fault
  /-- The index is the raw field, `value2 + 64`. -/
  | masked
deriving DecidableEq, Repr

/-- The values of the open parameter `MAX_TICKS` (R9, R196): the host's bound on the ticks of a run, an argument of the run
(log 15). -/
inductive MaxTicks where
  /-- No bound. The spec's default (D12). -/
  | unbounded
  | bounded (n : Nat)
deriving DecidableEq, Repr

namespace Config

/-- The spec's default of `V2_REG_INDEX` (R9, D6). -/
def v2RegIndexDefault : V2RegIndex := .fault

/-- The spec's default of `MAX_TICKS` (R9, D12). -/
def maxTicksDefault : MaxTicks := .unbounded

/-- FREE VALUE (DESIGN CHOICE, log 5): PC bits 15:8 after the n-th draw. R29: "Their value after BR or BEQZ is unspecified". -/
opaque freePcHigh : Nat → Byte

/-- FREE VALUE (DESIGN CHOICE, log 6): the pc-tag of a latch that became Empty at the n-th draw. R36: "Otherwise it does not
say what an Empty latch's payload and pc-tag hold". -/
opaque freePcTag : Nat → Byte

end Config

end Sys2Proof
end

