-- ==== Sys2Proof/Machine/State.lean ====
section
/-! DEFINITION. The state of the block as plain data (10_state.md), the reasons a run stops, and the state after reset
(70_reset_and_hazards.md R190, the table of 10_state.md R52). -/

namespace Sys2Proof.Machine

open Sys2Proof

/-- The model faults: the closed list of R173. A model fault is no hardware exception: it marks an input the source gives no
meaning (R172). Each is SAFE: the model stops where the hardware does something the spec does not state. -/
inductive Fault where
  /-- Raised by ADD, SUB, MUL, EOR and BR: `value2` negative as a register index, with `V2_REG_INDEX = fault` (R92). Safe. -/
  | v2RegIndexNegative
  /-- Raised by LDR and STR: `value2` negative as a data address (R153). Safe. -/
  | dataAddressNegative
  /-- Raised by SAL and SAR: `value2` negative as a shift count (R144). Safe. -/
  | shiftCountNegative
deriving DecidableEq, Repr

/-- The refusals. -/
inductive Refusal where
  /-- Raised by `exec` for an instruction that has no meaning yet: none is left. Safe. -/
  | notModelled (mnemonic : String)
deriving DecidableEq, Repr

/-- The five flags of the status register, low to high (R24). -/
inductive Flag where
  /-- Carry, bit 0. -/
  | C
  /-- Overflow, bit 1. -/
  | V
  /-- Negative, bit 2. -/
  | N
  /-- Sign (duplicates Zero), bit 3. -/
  | S
  /-- Zero, bit 4. -/
  | Z
deriving DecidableEq, Repr

/-- The run status (R53). -/
inductive RunStatus where
  | running
  | terminated
  | faulted (reason : Fault)
deriving DecidableEq, Repr

/-- A pipeline latch (R30): `none` is Empty and `some p` is Occupied(p); the pc-tag is held in both states. An Empty latch
holds no payload (R36, D13; log 7). -/
structure Latch (α : Type) where
  payload : Option α
  pcTag : Byte
deriving DecidableEq, Repr

/-- A memory of cells of `w` bits: the cells that differ from what an unlisted address reads as, addresses strictly
rising. `Cells 8` is a list of `Host.Cell`. -/
abbrev Cells (w : Nat) := List (Nat × BitVec w)

/-- The whole state of the block. -/
structure State where
  /-- `x[0]` to `x[63]` (R20). -/
  regs : Vector Byte 64
  /-- The status register (R24). -/
  sr : Byte
  /-- PC bits 15:8: written, never read (R29; log 5). -/
  pcHigh : Byte
  /-- PC bits 7:0: the PC as the core reads it (R27). -/
  pcLow : Byte
  /-- Instruction memory (R39); an unlisted cell holds the sentinel 0xFFFF. -/
  im : Cells 16
  /-- Data memory (R40); an unlisted cell holds 0. -/
  dm : Cells 8
  /-- L1, fetched: a raw word (R31). -/
  l1 : Latch Word
  /-- L2, decoded-pending (R32). -/
  l2 : Latch DecodedRecord
  /-- L3, decoded-staged (R33). -/
  l3 : Latch DecodedRecord
  /-- L4, execute-staged (R34). -/
  l4 : Latch DecodedRecord
  /-- The tick counter (R42). -/
  cycle : Nat
  /-- The run status (R53). -/
  runStatus : RunStatus
  /-- The open parameter `V2_REG_INDEX` (R9, R92): a constant of the machine, written by nothing (log 2). -/
  v2RegIndex : V2RegIndex
  /-- How many unspecified values have been drawn: the model's own field, not the spec's (log 5). -/
  freeCount : Nat
deriving DecidableEq, Repr

/-- What a step or an instruction answers. -/
abbrev Result := Host.Outcome State Fault Refusal

/-- An Empty latch with pc-tag 0, as reset and squash leave it (R37, R108). -/
def emptyLatch (α : Type) : Latch α := { payload := none, pcTag := 0 }

/-- The machine right after reset (R190, R52). -/
def State.reset : State :=
  { regs := Vector.replicate 64 0
    sr := 0
    pcHigh := 0
    pcLow := 0
    im := []
    dm := []
    l1 := emptyLatch Word
    l2 := emptyLatch DecodedRecord
    l3 := emptyLatch DecodedRecord
    l4 := emptyLatch DecodedRecord
    cycle := 0
    runStatus := .running
    v2RegIndex := Config.v2RegIndexDefault
    freeCount := 0 }

end Sys2Proof.Machine
end

