-- ==== Sys2Proof/Machine/Memory.lean ====
section
/-! DEFINITION. The two memories as lists of cells in one canonical form (20_memory.md): reading and writing one cell, the
interfaces `IFetch`, `MemRead` and `MemWrite`, and the canonical form. -/

namespace Sys2Proof.Machine

open Sys2Proof

/-- The cell at address `a`; `unlisted` where the list has none. -/
def Cells.read {w : Nat} (unlisted : BitVec w) : Cells w → Nat → BitVec w
  | [], _ => unlisted
  | (k, x) :: m, a => if k = a then x else Cells.read unlisted m a

/-- The memory without any entry for `a`. -/
def Cells.erase {w : Nat} : Cells w → Nat → Cells w
  | [], _ => []
  | (k, x) :: m, a => if k = a then Cells.erase m a else (k, x) :: Cells.erase m a

/-- The memory with the entry `(a, x)` before the first higher address. -/
def Cells.insert {w : Nat} : Cells w → Nat → BitVec w → Cells w
  | [], a, x => [(a, x)]
  | (k, y) :: m, a, x => if a < k then (a, x) :: (k, y) :: m else (k, y) :: Cells.insert m a x

/-- Writing one cell. Writing what an unlisted address reads as removes the entry, so equal memories are equal lists. -/
def Cells.write {w : Nat} (unlisted : BitVec w) (m : Cells w) (a : Nat) (x : BitVec w) : Cells w :=
  if x = unlisted then m.erase a else (m.erase a).insert a x

/-- The canonical form from address `lo` up: addresses strictly rising, all below `size`, no entry equal to `unlisted`. -/
def Cells.wfFrom {w : Nat} (unlisted : BitVec w) (size : Nat) : Nat → Cells w → Bool
  | _, [] => true
  | lo, (k, x) :: m => decide (lo ≤ k) && decide (k < size) && (x != unlisted) && Cells.wfFrom unlisted size (k + 1) m

/-- What an unlisted instruction-memory cell reads as: the sentinel of reset (R39, R70). -/
def imUnlisted : Word := 0xFFFF

/-- What an unlisted data-memory cell reads as: the zero of reset (R40, R70). -/
def dmUnlisted : Byte := 0

/-- Both memories are in canonical form, within 1024 and 2048 cells (R60). -/
def Memory.wf (s : State) : Bool :=
  Cells.wfFrom imUnlisted 1024 0 s.im && Cells.wfFrom dmUnlisted 2048 0 s.dm

/-- `IFetch(a)` (R61). -/
def State.ifetch (s : State) (a : ImAddr) : Word := Cells.read imUnlisted s.im a.val

/-- `IM[a] <- w`: done by the host's loader only (R62, R194). -/
def State.writeIm (a : ImAddr) (w : Word) (s : State) : State :=
  { s with im := Cells.write imUnlisted s.im a.val w }

/-- `MemRead(a, 1)` (R64). -/
def State.memRead (s : State) (a : DmAddr) : Byte := Cells.read dmUnlisted s.dm a.val

/-- `MemWrite(a, 1, v)` (R65). -/
def State.memWrite (a : DmAddr) (v : Byte) (s : State) : State :=
  { s with dm := Cells.write dmUnlisted s.dm a.val v }

end Sys2Proof.Machine
end

