-- ==== Sys2Proof/Machine/Ops.lean ====
section
/-! DEFINITION. The named operations over registers, PC and latches (10_state.md, 40_pipeline.md), the drawing of
unspecified values, and what a model fault does (60_exceptions.md R172). The hardware has no exception to take and none to
return from (R170, R175): `recordFault` is the one operation of that kind. -/

namespace Sys2Proof.Machine

open Sys2Proof

/-- Sequencing of outcomes: go on from a next state, stop at a fault or a refusal. -/
def andThen (o : Result) (f : State → Result) : Result :=
  match o with
  | .next s => f s
  | .fault r => .fault r
  | .refused r => .refused r

/-! ### Registers -/

/-- `read(index)` (R21). -/
def State.readReg (s : State) (i : RegNum) : Byte := s.regs[i]

/-- `write(index, value)` (R22). -/
def State.writeReg (i : RegNum) (v : Byte) (s : State) : State :=
  { s with regs := s.regs.set i.val v i.isLt }

/-! ### The program counter -/

/-- The stored 16-bit PC (R26). -/
def State.pc (s : State) : BitVec 16 := s.pcHigh ++ s.pcLow

/-- `PCView()`: the low 8 bits of the PC, the only PC the core reads (R27). -/
def State.pcView (s : State) : Byte := s.pcLow

/-- The instruction-memory address that an 8-bit PC names (R61, R63). -/
def imAddrOf (pcView : Byte) : ImAddr := ⟨pcView.toNat, Nat.lt_trans pcView.isLt (by decide)⟩

/-- `incrementPC()`: the 16-bit PC plus 1, modulo 65536 (R28), on its two bytes. -/
def State.incrementPc (s : State) : State :=
  { s with pcLow := s.pcLow + 1, pcHigh := if s.pcLow = 0xFF then s.pcHigh + 1 else s.pcHigh }

/-- `setPC` by a branch: bits 7:0 are the target, bits 15:8 are unspecified (R29, R160, R161), a free value (log 5). -/
def State.setPc (target : Byte) (s : State) : State :=
  { s with pcLow := target, pcHigh := Config.freePcHigh s.freeCount, freeCount := s.freeCount + 1 }

/-! ### Latches -/

/-- `Occupied(p)` with its pc-tag (R30). -/
def occupiedLatch {α : Type} (p : α) (pcTag : Byte) : Latch α := { payload := some p, pcTag := pcTag }

/-- `Empty` with an unspecified pc-tag, the n-th value drawn (R36; log 6). -/
def vacatedLatch (α : Type) (n : Nat) : Latch α := { payload := none, pcTag := Config.freePcTag n }

/-- L1 is marked Empty: by the fetch of the sentinel, whose pc-tag is unspecified (R103). -/
def State.vacateL1 (s : State) : State :=
  { s with l1 := vacatedLatch Word s.freeCount, freeCount := s.freeCount + 1 }

/-- L2 is marked Empty by its promotion (R105). -/
def State.vacateL2 (s : State) : State :=
  { s with l2 := vacatedLatch DecodedRecord s.freeCount, freeCount := s.freeCount + 1 }

/-- L3 is marked Empty by its move to L4 (R107). -/
def State.vacateL3 (s : State) : State :=
  { s with l3 := vacatedLatch DecodedRecord s.freeCount, freeCount := s.freeCount + 1 }

/-- L4 is marked Empty (R107). Where it is Empty already, as a squash leaves it, nothing changes (DEDUCED, log 6). -/
def State.vacateL4 (s : State) : State :=
  match s.l4.payload with
  | none => s
  | some _ => { s with l4 := vacatedLatch DecodedRecord s.freeCount, freeCount := s.freeCount + 1 }

/-- `squash()`: L2, L3 and L4 become Empty with pc-tag 0; L1 is not touched (R108, R104). -/
def State.squash (s : State) : State :=
  { s with l2 := emptyLatch DecodedRecord, l3 := emptyLatch DecodedRecord, l4 := emptyLatch DecodedRecord }

/-- All four latches are Empty (R112). -/
def State.allLatchesEmpty (s : State) : Bool :=
  s.l1.payload.isNone && s.l2.payload.isNone && s.l3.payload.isNone && s.l4.payload.isNone

/-! ### The run -/

/-- `cycle <- cycle + 1` (R42, R100). -/
def State.countTick (s : State) : State := { s with cycle := s.cycle + 1 }

/-- What a model fault writes: the run status, and nothing else (R122, R172). -/
def State.recordFault (reason : Fault) (s : State) : State := { s with runStatus := .faulted reason }

end Sys2Proof.Machine
end

