-- ==== Sys2Proof/Machine/Flags.lean ====
section
/-! DEFINITION. The status register's flags and the flag-update primitives (10_state.md R43 to R48), and the groups of them the
instructions call (41_arith.md R133). The operands are the values read before the instruction's own write, the result is
the wrapped 8-bit result (R49). -/

namespace Sys2Proof.Machine

open Sys2Proof

/-- The bit of the status register that holds a flag (R24). -/
def Flag.bit : Flag → Nat
  | .C => 0
  | .V => 1
  | .N => 2
  | .S => 3
  | .Z => 4

/-- The status byte with only that flag's bit set. -/
def Flag.mask (f : Flag) : Byte := 1#8 <<< f.bit

/-- `flag.F` (R12). -/
def State.flag (s : State) (f : Flag) : Bool := s.sr.getLsbD f.bit

/-- `flag.F <- b` (R12): no other bit of the status register changes (R50, R51). -/
def State.setFlag (f : Flag) (b : Bool) (s : State) : State :=
  { s with sr := if b then s.sr ||| f.mask else s.sr &&& ~~~f.mask }

/-- The Carry condition (R43): the operands read as unsigned. -/
def carryOf (op1 op2 : Byte) : Bool := decide (op1.toNat + op2.toNat > 255)

/-- The Overflow condition of an addition (R44), as the source's formula has it. -/
def overflowAddOf (op1 op2 result : Byte) : Bool :=
  (decide (op1.toInt > 0) && decide (op2.toInt > 0) && decide (result.toInt < 0)) ||
    (decide (op1.toInt < 0) && decide (op2.toInt < 0) && decide (result.toInt > 0))

/-- The Overflow condition of a subtraction (R45), as the source's formula has it. -/
def overflowSubOf (op1 op2 result : Byte) : Bool :=
  (decide (op1.toInt < 0) && decide (op2.toInt > 0) && decide (result.toInt > 0)) ||
    (decide (op1.toInt > 0) && decide (op2.toInt < 0) && decide (result.toInt < 0))

/-- `updateCarry` (R43). -/
def updateCarry (op1 op2 : Byte) (s : State) : State := s.setFlag .C (carryOf op1 op2)

/-- `updateOverflow`, addition (R44). -/
def updateOverflowAdd (op1 op2 result : Byte) (s : State) : State := s.setFlag .V (overflowAddOf op1 op2 result)

/-- `updateOverflow`, subtraction (R45). -/
def updateOverflowSub (op1 op2 result : Byte) (s : State) : State := s.setFlag .V (overflowSubOf op1 op2 result)

/-- `updateNegative` (R46). -/
def updateNegative (result : Byte) (s : State) : State := s.setFlag .N (decide (result.toInt < 0))

/-- `updateSign` (R47): the condition of Zero, as the source has it. -/
def updateSign (result : Byte) (s : State) : State := s.setFlag .S (decide (result.toInt = 0))

/-- `updateZero` (R48). -/
def updateZero (result : Byte) (s : State) : State := s.setFlag .Z (decide (result.toInt = 0))

/-- The flags of ADD: C, V, N, S, Z (R130, R133). -/
def addFlags (op1 op2 result : Byte) (s : State) : State :=
  updateZero result (updateSign result (updateNegative result (updateOverflowAdd op1 op2 result (updateCarry op1 op2 s))))

/-- The flags of SUB: V, N, S, Z; C is not touched (R131, R133). -/
def subFlags (op1 op2 result : Byte) (s : State) : State :=
  updateZero result (updateSign result (updateNegative result (updateOverflowSub op1 op2 result s)))

/-- The flags of MUL, ANDI, EOR, SAL and SAR: N and Z (R133). -/
def nzFlags (result : Byte) (s : State) : State := updateZero result (updateNegative result s)

end Sys2Proof.Machine
end

