-- ==== Sys2Proof/Machine/Operands.lean ====
section
/-! DEFINITION. The arithmetic of 00_scope.md R11 and every role of `value2` (30_encoding.md R85): second register, immediate,
branch offset, shift count, data address. -/

namespace Sys2Proof.Machine

open Sys2Proof

/-- `wrap8(n)`: the `int8` congruent to `n` modulo 256 (R11). -/
def wrap8 (n : Int) : Byte := BitVec.ofInt 8 n

/-- `value2` as the integer the spec reads it as, -32 to 31 (R83). -/
def value2Int (v : Value2) : Int := v.toInt

/-- A 6-bit two's complement field is below 32. -/
theorem value2Int_lt (v : Value2) : value2Int v < 32 := by
  have h := BitVec.toInt_lt (x := v); unfold value2Int; omega

/-- A 6-bit two's complement field is at least -32. -/
theorem le_value2Int (v : Value2) : -32 ≤ value2Int v := by
  have h := BitVec.le_toInt (x := v); unfold value2Int; omega

/-- `value2` as an `int8` immediate: sign-extended to 8 bits (R83, R140, R150). -/
def immediate (v : Value2) : Byte := v.signExtend 8

/-- `regIndex2(value2)` (R92): the index itself where it is not negative; else by `V2_REG_INDEX` the raw field or a model fault. -/
def regIndex2 (mode : V2RegIndex) (v : Value2) : Except Fault RegNum :=
  if h : 0 ≤ value2Int v then
    .ok ⟨(value2Int v).toNat, by have := value2Int_lt v; omega⟩
  else
    match mode with
    | .masked => .ok ⟨(value2Int v + 64).toNat, by omega⟩
    | .fault => .error .v2RegIndexNegative

/-- The shift count of SAL and SAR (R144): `value2`, 0 to 31; a negative one is a model fault. -/
def shiftCount (v : Value2) : Except Fault Nat :=
  if 0 ≤ value2Int v then .ok (value2Int v).toNat else .error .shiftCountNegative

/-- The effective address of LDR and STR (R153): `value2` itself; a negative one is a model fault. -/
def dataAddress (v : Value2) : Except Fault DmAddr :=
  if h : 0 ≤ value2Int v then
    .ok ⟨(value2Int v).toNat, by have := value2Int_lt v; omega⟩
  else
    .error .dataAddressNegative

/-- The target of a taken BEQZ: `(PCView() + value2 - 1) mod 256` (R160, R165). -/
def branchTarget (pcView : Byte) (v : Value2) : Byte :=
  BitVec.ofInt 8 (pcView.toNat + value2Int v - 1)

/-! The results of the operations, computed on integers and wrapped (R134), or bit by bit (R140, R141). -/

/-- `wrap8(op1 + op2)` (R130). -/
def addResult (op1 op2 : Byte) : Byte := wrap8 (op1.toInt + op2.toInt)

/-- `wrap8(op1 - op2)` (R131). -/
def subResult (op1 op2 : Byte) : Byte := wrap8 (op1.toInt - op2.toInt)

/-- `wrap8(op1 * op2)` (R132). -/
def mulResult (op1 op2 : Byte) : Byte := wrap8 (op1.toInt * op2.toInt)

/-- `s8(u8(op1) & u8(op2))` (R140). -/
def andResult (op1 op2 : Byte) : Byte := op1 &&& op2

/-- `s8(u8(op1) ^ u8(op2))` (R141). -/
def eorResult (op1 op2 : Byte) : Byte := op1 ^^^ op2

/-- `wrap8(x * 2^count)` (R142). -/
def salResult (x : Byte) (count : Nat) : Byte := wrap8 (x.toInt * 2 ^ count)

/-- `floor(x / 2^count)` (R143; the sign fill is the spec's decision D9, log 9). -/
def sarResult (x : Byte) (count : Nat) : Byte := wrap8 (Int.fdiv x.toInt (2 ^ count))

end Sys2Proof.Machine
end

