-- ==== Sys2Proof/Machine/Arith.lean ====
section
/-! DEFINITION. ADD, SUB and MUL (41_arith.md). -/

namespace Sys2Proof.Machine

open Sys2Proof

/-- The shape of ADD, SUB, MUL and EOR: resolve the second register (a model fault stops here, before any write), read both
operands, compute the result, update the flags, write Rd (R130, R131, R132, R141). -/
def registerOp (result : Byte → Byte → Byte) (flags : Byte → Byte → Byte → State → State)
    (d : RegNum) (v : Value2) (s : State) : Result :=
  match regIndex2 s.v2RegIndex v with
  | .error reason => .fault reason
  | .ok i =>
    let op1 := s.readReg d
    let op2 := s.readReg i
    let r := result op1 op2
    .next ((flags op1 op2 r s).writeReg d r)

/-- ADD (R130). -/
def execAdd (d : RegNum) (v : Value2) (s : State) : Result := registerOp addResult addFlags d v s

/-- SUB (R131). -/
def execSub (d : RegNum) (v : Value2) (s : State) : Result := registerOp subResult subFlags d v s

/-- MUL (R132). -/
def execMul (d : RegNum) (v : Value2) (s : State) : Result := registerOp mulResult (fun _ _ r => nzFlags r) d v s

end Sys2Proof.Machine
end

