-- ==== Sys2Proof/Machine/Control.lean ====
section
/-! DEFINITION. BEQZ, BR and the reserved opcodes (44_control.md), and the sentinel word (40_pipeline.md R103). -/

namespace Sys2Proof.Machine

open Sys2Proof

/-- A taken branch: the PC is written first, then the younger instructions are squashed (R109). -/
def takeBranch (target : Byte) (s : State) : State := (s.setPc target).squash

/-- BEQZ (R160): it tests the register, not the Zero flag. -/
def execBeqz (d : RegNum) (v : Value2) (s : State) : Result :=
  if s.readReg d = 0 then .next (takeBranch (branchTarget s.pcView v) s) else .next s

/-- BR (R161): the low byte of `(Rd<<8)|Rs` is Rs; Rd gives only PC bits 15:8, which are unspecified and never read. -/
def execBr (_d : RegNum) (v : Value2) (s : State) : Result :=
  match regIndex2 s.v2RegIndex v with
  | .error reason => .fault reason
  | .ok i => .next (takeBranch (s.readReg i) s)

/-- A reserved opcode: no register, flag, memory or PC access, no squash (R162). -/
def reservedNoOp (s : State) : Result := .next s

/-- Opcode 12 (R162). -/
def execReserved12 (s : State) : Result := reservedNoOp s

/-- Opcode 13 (R162). -/
def execReserved13 (s : State) : Result := reservedNoOp s

/-- Opcode 14 (R162). -/
def execReserved14 (s : State) : Result := reservedNoOp s

/-- Opcode 15 (R162). -/
def execReserved15 (s : State) : Result := reservedNoOp s

/-- The sentinel (R103): L1 becomes Empty; the PC is not incremented and nothing else changes. Run by the fetch-step. -/
def execSentinel (s : State) : Result := .next s.vacateL1

end Sys2Proof.Machine
end

