-- ==== Sys2Proof/Machine/LogicShift.lean ====
section
/-! DEFINITION. ANDI, EOR, SAL and SAR (42_logic_shift.md). -/

namespace Sys2Proof.Machine

open Sys2Proof

/-- Write a result to Rd and update N and Z from it (R133). -/
def writeResultNz (d : RegNum) (r : Byte) (s : State) : State := (nzFlags r s).writeReg d r

/-- The shape of SAL and SAR: take the count (a model fault stops here, before any write), shift Rd, update N and Z (R142,
R143, R144). -/
def shiftOp (result : Byte → Nat → Byte) (d : RegNum) (v : Value2) (s : State) : Result :=
  match shiftCount v with
  | .error reason => .fault reason
  | .ok count => .next (writeResultNz d (result (s.readReg d) count) s)

/-- ANDI (R140). -/
def execAndi (d : RegNum) (v : Value2) (s : State) : Result :=
  .next (writeResultNz d (andResult (s.readReg d) (immediate v)) s)

/-- EOR (R141). -/
def execEor (d : RegNum) (v : Value2) (s : State) : Result := registerOp eorResult (fun _ _ r => nzFlags r) d v s

/-- SAL (R142). -/
def execSal (d : RegNum) (v : Value2) (s : State) : Result := shiftOp salResult d v s

/-- SAR (R143). -/
def execSar (d : RegNum) (v : Value2) (s : State) : Result := shiftOp sarResult d v s

end Sys2Proof.Machine
end

