-- ==== Sys2Proof/Machine/MoveMem.lean ====
section
/-! DEFINITION. MOVI, LDR and STR (43_move_mem.md). None of them touches a flag (R133). -/

namespace Sys2Proof.Machine

open Sys2Proof

/-- MOVI (R150). -/
def execMovi (d : RegNum) (v : Value2) (s : State) : Result := .next (s.writeReg d (immediate v))

/-- LDR (R151). -/
def execLdr (d : RegNum) (v : Value2) (s : State) : Result :=
  match dataAddress v with
  | .error reason => .fault reason
  | .ok ea => .next (s.writeReg d (s.memRead ea))

/-- STR (R152). -/
def execStr (d : RegNum) (v : Value2) (s : State) : Result :=
  match dataAddress v with
  | .error reason => .fault reason
  | .ok ea => .next (s.memWrite ea (s.readReg d))

end Sys2Proof.Machine
end

