-- ==== Sys2Proof/Machine/Dispatch.lean ====
section
/-! DEFINITION. The opcode switch (40_pipeline.md R110): one arm per constructor of Instr. -/

namespace Sys2Proof.Machine

open Sys2Proof

def exec (i : Instr) (s : State) : Host.Outcome State Fault Refusal :=
  match i with
  | .add rd value2 => Sys2Proof.Machine.execAdd rd value2 s
  | .sub rd value2 => Sys2Proof.Machine.execSub rd value2 s
  | .mul rd value2 => Sys2Proof.Machine.execMul rd value2 s
  | .movi rd value2 => Sys2Proof.Machine.execMovi rd value2 s
  | .beqz rd value2 => Sys2Proof.Machine.execBeqz rd value2 s
  | .andi rd value2 => Sys2Proof.Machine.execAndi rd value2 s
  | .eor rd value2 => Sys2Proof.Machine.execEor rd value2 s
  | .br rd value2 => Sys2Proof.Machine.execBr rd value2 s
  | .sal rd value2 => Sys2Proof.Machine.execSal rd value2 s
  | .sar rd value2 => Sys2Proof.Machine.execSar rd value2 s
  | .ldr rd value2 => Sys2Proof.Machine.execLdr rd value2 s
  | .str rd value2 => Sys2Proof.Machine.execStr rd value2 s
  | .reserved12 _ _ => Sys2Proof.Machine.execReserved12 s
  | .reserved13 _ _ => Sys2Proof.Machine.execReserved13 s
  | .reserved14 _ _ => Sys2Proof.Machine.execReserved14 s
  | .reserved15 _ _ => Sys2Proof.Machine.execReserved15 s
  | .sentinel => Sys2Proof.Machine.execSentinel s

end Sys2Proof.Machine
end

