-- ==== Sys2Proof/Machine/Pipeline.lean ====
section
/-! DEFINITION. The pipeline engine (40_pipeline.md): fetch-step, decode-step, execute-step, termination, and the tick that runs
them in that order. -/

namespace Sys2Proof.Machine

open Sys2Proof

/-- The word the fetch-step reads: `IFetch(PCView())` (R61, R102). -/
def State.fetchedWord (s : State) : Word := s.ifetch (imAddrOf s.pcView)

/-- The fetch of a word that is not the sentinel (R102): L1 is Occupied with the raw word and the pc at fetch, the PC is
incremented. -/
def State.latchFetched (s : State) : State :=
  { s.incrementPc with l1 := occupiedLatch s.fetchedWord s.pcView }

/-- The fetch-step (R102, R103). The sentinel is told apart from RESERVED15 here, before any decoding (R90). -/
def fetchStep (s : State) : Result :=
  if s.fetchedWord = sentinelWord then exec .sentinel s else .next s.latchFetched

/-- Decode-step, part 1 (R105): an Occupied L2 is promoted to L3. -/
def State.promote (s : State) : State :=
  match s.l2.payload with
  | some r => { s with l3 := occupiedLatch r s.l2.pcTag }.vacateL2
  | none => s

/-- Decode-step, part 2 (R106): an Occupied L1 is decoded into L2. -/
def State.decodeL1 (s : State) : State :=
  match s.l1.payload with
  | some w => { s with l2 := occupiedLatch (decodeRecord w) s.l1.pcTag }
  | none => s

/-- The decode-step (R105, R106). -/
def decodeStep (s : State) : State := s.promote.decodeL1

/-- Execute-step, part 2 (R107): an Occupied L3 moves to L4, else L4 is Empty. -/
def State.advanceL3 (s : State) : State :=
  match s.l3.payload with
  | some r => { s with l4 := occupiedLatch r s.l3.pcTag }.vacateL3
  | none => s.vacateL4

/-- `dispatch(i)` (R110). -/
def dispatch (r : DecodedRecord) (s : State) : Result := exec r.instr s

/-- The execute-step (R107): an Occupied L4 is dispatched and marked Empty, then L3 moves on. Where the dispatch raises a
model fault the tick stops at that point with the run status Faulted (R122). -/
def executeStep (s : State) : Result :=
  match s.l4.payload with
  | none => .next s.advanceL3
  | some r =>
    match dispatch r s with
    | .next t => .next t.vacateL4.advanceL3
    | .fault reason => .next (s.recordFault reason)
    | .refused q => .refused q

/-- `checkTermination()` (R112): only a Running status becomes Terminated (R53). -/
def checkTermination (s : State) : State :=
  match s.runStatus with
  | .running => if s.allLatchesEmpty then { s with runStatus := .terminated } else s
  | .terminated => s
  | .faulted _ => s

/-- One tick (R100): the counter, the three steps in order, each on the state the one before left (R101), and the check. -/
def tick (s : State) : Result :=
  andThen (fetchStep s.countTick) fun s1 =>
    andThen (executeStep (decodeStep s1)) fun s2 =>
      .next (checkTermination s2)

/-- One step of the model: a tick is taken only while the run status is Running (R100). After `Terminated` every piece of
state stays as the last tick left it (R184; log 4). After `Faulted(reason)` no further tick is taken, and the step answers
the fault (R172; log 3). -/
def stepState (s : State) : Result :=
  match s.runStatus with
  | .running => tick s
  | .terminated => .next s
  | .faulted reason => .fault reason

/-- The state in which the very next tick acts on the word `w` (log 1). A word other than the sentinel stands in IM at the PC,
has been fetched from there (the PC is past it), and is in L4, from where the next tick dispatches it: what two ticks after
a load make of it. The sentinel stands in IM at the PC, where the next fetch-step reads it, with nothing in L4 beside it. -/
def State.placeNext (w : Word) (s : State) : State :=
  let loaded := { s.writeIm (imAddrOf s.pcView) w with runStatus := .running }
  if w = sentinelWord then { loaded with l4 := emptyLatch DecodedRecord }
  else { loaded.incrementPc with l4 := occupiedLatch (decodeRecord w) s.pcView }

end Sys2Proof.Machine
end

