-- ==== Sys2Proof/Machine/Step.lean ====
section
/-! DEFINITION. The step of the machine, and the state in which its next step runs a given instruction. -/

namespace Sys2Proof.Machine

open Sys2Proof

/-- One step: one tick of the block (40_pipeline.md R100). -/
def step (s : State) : Host.Outcome State Fault Refusal := stepState s

/-- `s` with the instruction of the `nbits` bits `w` where the very next step runs it (log 1). Every instruction is one
16-bit word (R80), so the word is the low 16 bits. -/
def State.withFetchWord (s : State) (_nbits w : Nat) : State := s.placeNext (BitVec.ofNat 16 w)

end Sys2Proof.Machine
end

