-- ==== Sys2Proof/WellFormed.lean ====
section
/-! DEFINITION. Which terms of the syntax stand for something the hardware can hold: an instruction that has a word of its
own, and an assembly line whose operands have the form and the range the assembler accepts. -/

namespace Sys2Proof

/-- The field pattern of the sentinel word below opcode 15: operand1 63, value2 -1 (R90). -/
def isSentinelPattern (operand1 : RegNum) (value2 : Value2) : Bool :=
  operand1 == 63 && value2 == BitVec.allOnes 6

/-- An instruction is well formed when some instruction word is that instruction: every operand of every form is, but for
opcode 15 with the operands of the sentinel word (R88, R90). -/
def Instr.wellFormed : Instr → Bool
  | .add _ _ => true
  | .sub _ _ => true
  | .mul _ _ => true
  | .movi _ _ => true
  | .beqz _ _ => true
  | .andi _ _ => true
  | .eor _ _ => true
  | .br _ _ => true
  | .sal _ _ => true
  | .sar _ _ => true
  | .ldr _ _ => true
  | .str _ _ => true
  | .reserved12 _ _ => true
  | .reserved13 _ _ => true
  | .reserved14 _ _ => true
  | .reserved15 operand1 value2 => !isSentinelPattern operand1 value2
  | .sentinel => true

/-- The type of a mnemonic's instruction (R86). -/
def Mnemonic.type : Mnemonic → InstrType
  | .ADD | .SUB | .MUL | .EOR | .BR => .R
  | .MOVI | .BEQZ | .ANDI | .SAL | .SAR | .LDR | .STR => .I

/-- The first operand of a line: always `R0` to `R63` (R93, R95). -/
def AsmLine.operand1Ok (l : AsmLine) : Bool :=
  match l.operand1 with
  | .reg n => decide (n < 64)
  | .dec _ => false

/-- The second operand of a line: `R0` to `R63` for type R, a decimal -32 to 31 for type I (R93, R95). -/
def AsmLine.operand2Ok (l : AsmLine) : Bool :=
  match l.mnemonic.type, l.operand2 with
  | .R, .reg n => decide (n < 64)
  | .I, .dec k => decide (-32 ≤ k) && decide (k ≤ 31)
  | .R, .dec _ => false
  | .I, .reg _ => false

/-- A line the assembler accepts (R95; D15: any other line is refused). -/
def AsmLine.wellFormed (l : AsmLine) : Bool :=
  l.operand1Ok && l.operand2Ok

end Sys2Proof
end

