-- ==== Sys2Proof/Machine/HostSide.lean ====
section
/-! DEFINITION. What the host does to the block before a run (00_scope.md R17): reset it, assemble and load a program
(70_reset_and_hazards.md R190 to R195; 30_encoding.md R93 to R97). -/

namespace Sys2Proof.Machine

open Sys2Proof

/-! ### Reset -/

/-- `ResetDataMemory()` (R190). -/
def resetDataMemory (s : State) : State := { s with dm := [] }

/-- `ResetInstructionMemory()`: every cell holds the sentinel (R190). -/
def resetInstructionMemory (s : State) : State := { s with im := [] }

/-- `ResetRegisters()`: registers, status register and PC are 0 (R190). -/
def resetRegisters (s : State) : State :=
  { s with regs := Vector.replicate 64 0, sr := 0, pcHigh := 0, pcLow := 0 }

/-- The latches Empty with pc-tag 0 (R190, decision D2). -/
def resetLatches (s : State) : State :=
  { s with
    l1 := emptyLatch Word, l2 := emptyLatch DecodedRecord, l3 := emptyLatch DecodedRecord, l4 := emptyLatch DecodedRecord }

/-- The tick counter, the run status and the model's own counter (R190, decisions D14, D21; log 5). -/
def resetBookkeeping (s : State) : State := { s with cycle := 0, runStatus := .running, freeCount := 0 }

/-- The block's reset from any state (R190). The open parameter is no state of the machine and is kept (log 2). -/
def resetProcessor (s : State) : State :=
  resetBookkeeping (resetLatches (resetRegisters (resetInstructionMemory (resetDataMemory s))))

/-! ### Assembling and loading -/

/-- Why the host rejects a program before the first tick. All of them are safe: no run exists (R185). -/
inductive LoadReject where
  /-- Line `k`, counting from 0, has an operand the assembler does not accept (R95, D15). -/
  | badLine (k : Nat)
  /-- More than 1024 words (R194, D16). -/
  | programTooLong
  /-- `WriteInstructionMemory` with an address above 1023 (R194). -/
  | noSuchAddress
deriving DecidableEq, Repr

/-- The opcode of a mnemonic (R94). -/
def mnemonicOpcode : Mnemonic → Opcode
  | .ADD => 0
  | .SUB => 1
  | .MUL => 2
  | .MOVI => 3
  | .BEQZ => 4
  | .ANDI => 5
  | .EOR => 6
  | .BR => 7
  | .SAL => 8
  | .SAR => 9
  | .LDR => 10
  | .STR => 11

/-- The first operand field of a line: the register index (R93, R84). -/
def operandRegister : AsmOperand → RegNum
  | .reg n => Fin.ofNat 64 n
  | .dec _ => 0

/-- The second operand field of a line: the low six bits of the register index or of the decimal (R97, `value2 mod 64`). -/
def operandField : AsmOperand → Value2
  | .reg n => BitVec.ofNat 6 n
  | .dec k => BitVec.ofInt 6 k

/-- The word of a line that is accepted (R95, R97). -/
def assembleLine (l : AsmLine) : Option Word :=
  if l.wellFormed then some (packWord (mnemonicOpcode l.mnemonic) (operandRegister l.operand1) (operandField l.operand2))
  else none

/-- The words of the lines, the first of them numbered `k`; a line that is not accepted rejects the program by its number
(R95). -/
def assembleFrom : Nat → List AsmLine → Except LoadReject (List Word)
  | _, [] => .ok []
  | k, l :: ls =>
    match assembleLine l with
    | none => .error (.badLine k)
    | some w =>
      match assembleFrom (k + 1) ls with
      | .error e => .error e
      | .ok ws => .ok (w :: ws)

/-- The words of a program (R94): line k becomes word k. -/
def assemble (ls : List AsmLine) : Except LoadReject (List Word) := assembleFrom 0 ls

/-- `WriteInstructionMemory(address, word)` for an address 0 to 1023 (R194). -/
def writeInstructionMemory (a : Nat) (w : Word) (s : State) : Except LoadReject State :=
  if h : a < 1024 then .ok (s.writeIm ⟨a, h⟩ w) else .error .noSuchAddress

/-- Writing the words to consecutive addresses from `a` up (R194). -/
def writeWordsFrom : Nat → List Word → State → Except LoadReject State
  | _, [], s => .ok s
  | a, w :: ws, s =>
    match writeInstructionMemory a w s with
    | .error e => .error e
    | .ok t => writeWordsFrom (a + 1) ws t

/-- The load: the words "sequentially starting at address 0" (R194); a program of more than 1024 words is refused (D16). -/
def loadProgram (ws : List Word) (s : State) : Except LoadReject State :=
  if 1024 < ws.length then .error .programTooLong else writeWordsFrom 0 ws s

end Sys2Proof.Machine
end

