-- ==== Sys2Proof/Machine/Observe.lean ====
section
/-! DEFINITION. The observability port (60_exceptions.md R180 to R183): the records one tick emits. They are output: no rule
reads them (R183), so they are a function of the state before the tick and not a part of State. -/

namespace Sys2Proof.Machine

open Sys2Proof

/-- The end-of-run dump (R182). -/
structure Dump where
  regs : List Byte
  status : Byte
  pcView : Byte
  dataMemory : List Byte
  instructionMemory : List Word
  cycle : Nat
deriving DecidableEq, Repr

/-- An observation record (R180). -/
inductive Event where
  /-- The fetch-step wrote L1 Occupied. -/
  | fetch (cycle : Nat) (pcTag : Byte) (raw : Word)
  /-- The decode-step wrote L2. -/
  | decode (cycle : Nat) (pcTag : Byte) (record : DecodedRecord)
  /-- The execute-step dispatched L4. -/
  | execute (cycle : Nat) (pcTag : Byte) (record : DecodedRecord)
  /-- A register was written. -/
  | regWrite (cycle : Nat) (index : RegNum) (value : Byte)
  /-- A flag primitive ran. -/
  | flagUpdate (cycle : Nat) (flag : Flag) (value : Bool)
  /-- `incrementPC` or `setPC` ran; the field is the new `PCView()`. -/
  | pcUpdate (cycle : Nat) (pcView : Byte)
  /-- The run status became Terminated. -/
  | endOfRun (dump : Dump)
deriving DecidableEq, Repr

/-- The cycle number a record carries (R42, R180). -/
def eventCycle : Event → Nat
  | .fetch c _ _ => c
  | .decode c _ _ => c
  | .execute c _ _ => c
  | .regWrite c _ _ => c
  | .flagUpdate c _ _ => c
  | .pcUpdate c _ => c
  | .endOfRun d => d.cycle

/-- The records of one tick, by the step that causes them. Within one step the order is open (`EVENT_ORDER`, R181): each list
stands for its records in any order. `maybeFetch` holds the record a sentinel fetch may or may not emit (R180, D11; log 14). -/
structure TickEvents where
  fetch : List Event
  maybeFetch : List Event
  decode : List Event
  execute : List Event
  ending : List Event
deriving DecidableEq, Repr

/-- No records: no tick is taken. -/
def noEvents : TickEvents := { fetch := [], maybeFetch := [], decode := [], execute := [], ending := [] }

/-- The streams one tick may emit: all fetch-step records before all decode-step records before all execute-step records, in
any order within a step, the end-of-run record last (R181). -/
def TickEvents.Admits (e : TickEvents) (stream : List Event) : Prop :=
  ∃ f d x, (f.Perm e.fetch ∨ f.Perm (e.fetch ++ e.maybeFetch)) ∧ d.Perm e.decode ∧ x.Perm e.execute ∧
    stream = f ++ d ++ x ++ e.ending

/-- The register an instruction writes: `x[operand1]` for ADD, SUB, MUL, MOVI, ANDI, EOR, SAL, SAR and LDR, none for the
others (R22). -/
def destReg : Instr → Option RegNum
  | .add d _ => some d
  | .sub d _ => some d
  | .mul d _ => some d
  | .movi d _ => some d
  | .beqz _ _ => none
  | .andi d _ => some d
  | .eor d _ => some d
  | .br _ _ => none
  | .sal d _ => some d
  | .sar d _ => some d
  | .ldr d _ => some d
  | .str _ _ => none
  | .reserved12 _ _ => none
  | .reserved13 _ _ => none
  | .reserved14 _ _ => none
  | .reserved15 _ _ => none
  | .sentinel => none

/-- The flags an instruction updates: the table of R133. -/
def flagsUpdated : Instr → List Flag
  | .add _ _ => [.C, .V, .N, .S, .Z]
  | .sub _ _ => [.V, .N, .S, .Z]
  | .mul _ _ => [.N, .Z]
  | .movi _ _ => []
  | .beqz _ _ => []
  | .andi _ _ => [.N, .Z]
  | .eor _ _ => [.N, .Z]
  | .br _ _ => []
  | .sal _ _ => [.N, .Z]
  | .sar _ _ => [.N, .Z]
  | .ldr _ _ => []
  | .str _ _ => []
  | .reserved12 _ _ => []
  | .reserved13 _ _ => []
  | .reserved14 _ _ => []
  | .reserved15 _ _ => []
  | .sentinel => []

/-- Whether an instruction dispatched in state `s` takes a branch: BEQZ where Rd is 0, and BR where its second register
resolves (R160, R161). -/
def takesBranch (i : Instr) (s : State) : Bool :=
  match i with
  | .beqz d _ => s.readReg d == 0
  | .br _ v => match regIndex2 s.v2RegIndex v with | .ok _ => true | .error _ => false
  | .add _ _ => false
  | .sub _ _ => false
  | .mul _ _ => false
  | .movi _ _ => false
  | .andi _ _ => false
  | .eor _ _ => false
  | .sal _ _ => false
  | .sar _ _ => false
  | .ldr _ _ => false
  | .str _ _ => false
  | .reserved12 _ _ => false
  | .reserved13 _ _ => false
  | .reserved14 _ _ => false
  | .reserved15 _ _ => false
  | .sentinel => false

/-- The records an instruction's own effect causes: dispatched in state `s`, leaving state `t`. -/
def effectEvents (i : Instr) (s t : State) : List Event :=
  (match destReg i with | some d => [Event.regWrite t.cycle d (t.readReg d)] | none => []) ++
    (flagsUpdated i).map (fun f => Event.flagUpdate t.cycle f (t.flag f)) ++
    (if takesBranch i s then [Event.pcUpdate t.cycle t.pcView] else [])

/-- The dump of R182: every register, the status register, `PCView()`, every cell of both memories, the tick count. -/
def dump (s : State) : Dump :=
  { regs := s.regs.toList
    status := s.sr
    pcView := s.pcView
    dataMemory := (List.range 2048).map (fun a => Cells.read dmUnlisted s.dm a)
    instructionMemory := (List.range 1024).map (fun a => Cells.read imUnlisted s.im a)
    cycle := s.cycle }

/-- The records of the fetch-step, run in state `s` (R180). -/
def fetchEvents (s : State) : List Event :=
  if s.fetchedWord = sentinelWord then []
  else [.fetch s.cycle s.pcView s.fetchedWord, .pcUpdate s.cycle s.incrementPc.pcView]

/-- The record a sentinel fetch may emit (R180 does not state whether; log 14). Its cycle is that of the tick that produced it
(R181). What its other fields hold is the model's choice (DESIGN CHOICE, log 14): the raw word is the word read, the sentinel,
and the pc-tag is the one L1 is left with, a free value (R103, D20; log 6). -/
def maybeFetchEvents (s : State) : List Event :=
  if s.fetchedWord = sentinelWord then [.fetch s.cycle s.vacateL1.l1.pcTag s.fetchedWord] else []

/-- The records of the decode-step, run in state `s` (R180). -/
def decodeEvents (s : State) : List Event :=
  match s.l1.payload with
  | some w => [.decode s.cycle s.l1.pcTag (decodeRecord w)]
  | none => []

/-- The records of the execute-step, run in state `s` (R180). A dispatch that raises a model fault is still recorded as
dispatched; it writes nothing, so it causes no other record (R122; log 14). -/
def executeEvents (s : State) : List Event :=
  match s.l4.payload with
  | none => []
  | some r =>
    .execute s.cycle s.l4.pcTag r ::
      (match dispatch r s with
        | .next t => effectEvents r.instr s t
        | .fault _ => []
        | .refused _ => [])

/-- The record of a tick that leaves `t`: EndOfRun where the run status became Terminated (R180). -/
def endingEvents (t : State) : List Event :=
  if t.runStatus = .terminated then [.endOfRun (dump t)] else []

/-- The records of the tick taken in state `s` (R180, R181). -/
def tickEvents (s : State) : TickEvents :=
  match s.runStatus with
  | .running =>
    let s0 := s.countTick
    match fetchStep s0 with
    | .next s1 =>
      { fetch := fetchEvents s0
        maybeFetch := maybeFetchEvents s0
        decode := decodeEvents s1
        execute := executeEvents (decodeStep s1)
        ending := match tick s with | .next t => endingEvents t | .fault _ => [] | .refused _ => [] }
    | .fault _ => noEvents
    | .refused _ => noEvents
  | .terminated => noEvents
  | .faulted _ => noEvents

end Sys2Proof.Machine
end

