-- ==== Sys2Proof/Machine/Run.lean ====
section
/-! DEFINITION. The host's run loop (70_reset_and_hazards.md R196), the event stream of a run (60_exceptions.md R181) and what a
run shows (00_scope.md R18). Reset and load come before it (R193, HostSide.lean). -/

namespace Sys2Proof.Machine

open Sys2Proof

/-- `n` steps in a row. -/
def ticks : Nat → State → Result
  | 0, s => .next s
  | n + 1, s => andThen (step s) (ticks n)

/-- A run of the host's loop so far: its count `n`, the block, and the records of its ticks in tick order. -/
structure Run where
  ticks : Nat
  state : State
  events : List TickEvents
deriving DecidableEq, Repr

/-- The run before its first tick: `n <- 0`. -/
def Run.start (s : State) : Run := { ticks := 0, state := s, events := [] }

/-- The body of the loop: `tick()`, then `n <- n + 1`. It answers none only for a block that has Faulted, which the loop never
ticks: reset and load come before it (R196). -/
def Run.round (r : Run) : Option Run :=
  match step r.state with
  | .next t => some { ticks := r.ticks + 1, state := t, events := r.events ++ [tickEvents r.state] }
  | .fault _ => none
  | .refused _ => none

/-- `MAX_TICKS is bounded and n == MAX_TICKS` (R196). After a tick `n` is at least 1, so the bound 0 is never met (log 15). -/
def boundMet (bound : MaxTicks) (n : Nat) : Bool :=
  match bound with
  | .unbounded => false
  | .bounded m => n == m

/-- The loop's `until`: the run status is not Running, or the bound is met (R196). -/
def Run.stops (bound : MaxTicks) (r : Run) : Bool := r.state.runStatus != .running || boundMet bound r.ticks

/-- The loop from `r` on: its body, again until it stops. None where it has not stopped after `fuel` rounds. -/
def hostLoop (bound : MaxTicks) : Nat → Run → Option Run
  | 0, _ => none
  | fuel + 1, r =>
    match r.round with
    | some r' => if r'.stops bound then some r' else hostLoop bound fuel r'
    | none => none

/-- `run(MAX_TICKS)` (R196) from the state `s` that reset and load left, computed for at most `fuel` ticks. -/
def hostRun (bound : MaxTicks) (fuel : Nat) (s : State) : Option Run := hostLoop bound fuel (Run.start s)

/-- `run(MAX_TICKS)` from `s` stops, as `r`. An unbounded run may never stop: then this holds of no `r` (R123, R196). -/
def HostRuns (bound : MaxTicks) (s : State) (r : Run) : Prop := ∃ fuel, hostRun bound fuel s = some r

/-- The event streams a sequence of ticks may emit: the records of each tick in an order it admits, every record of a tick before
every record of the ticks after it (R181). -/
def AdmitsStream : List TickEvents → List Event → Prop
  | [], stream => stream = []
  | e :: es, stream => ∃ first rest, e.Admits first ∧ AdmitsStream es rest ∧ stream = first ++ rest

/-- What a claim about a program observes (R18): the end state's registers, status register, PC (as the host reads it, R27) and
data memory, the number of ticks and the event stream. -/
structure Observation where
  regs : Vector Byte 64
  status : Byte
  pcView : Byte
  dataMemory : Cells 8
  ticks : Nat
  stream : List Event
deriving DecidableEq, Repr

/-- The run from `s` ends by the termination condition and shows `o`, for some order of the records within each step
(`EVENT_ORDER`, R9). A run stopped by the bound while Running, or by a model fault, has no end state (R18, R172, R196). -/
def Observes (bound : MaxTicks) (s : State) (o : Observation) : Prop :=
  ∃ r, HostRuns bound s r ∧ r.state.runStatus = .terminated ∧ AdmitsStream r.events o.stream ∧
    o.regs = r.state.regs ∧ o.status = r.state.sr ∧ o.pcView = r.state.pcView ∧ o.dataMemory = r.state.dm ∧ o.ticks = r.ticks

end Sys2Proof.Machine
end

