-- ==== Sys2Proof/Safety.lean ====
section
/-! DEFINITION. The terms the statements use: the integer form of the spec's arithmetic, frames, what the front end of a tick
leaves, erasures of what no rule reads, and the invariant of the machine. -/

namespace Sys2Proof.Machine

open Sys2Proof

/-! ### The spec's own arithmetic on integers -/

/-- `wrap8(n) = ((n + 128) mod 256) - 128` (R11). -/
def wrap8Int (n : Int) : Int := (n + 128) % 256 - 128

/-- Register `i` as the spec reads it: an `int8` (R20). -/
def xInt (s : State) (i : RegNum) : Int := (s.readReg i).toInt

/-- `u8(x) = x mod 256` (R11). -/
def u8Int (x : Int) : Int := x % 256

/-- Index `i` is what `regIndex2(value2)` gives in state `s` (R92): `value2` itself, or `value2 + 64` where it is negative and the
parameter is `masked`. -/
def SourceIndex (s : State) (v : Value2) (i : RegNum) : Prop :=
  (0 ≤ value2Int v ∧ (i.val : Int) = value2Int v) ∨
    (value2Int v < 0 ∧ s.v2RegIndex = .masked ∧ (i.val : Int) = value2Int v + 64)

/-- `regIndex2(value2)` raises the model fault in state `s` (R92). -/
def SourceFaults (s : State) (v : Value2) : Prop := value2Int v < 0 ∧ s.v2RegIndex = .fault

/-! ### Frames -/

/-- Every register but those listed is as before. -/
def RegsSameBut (ds : List RegNum) (s t : State) : Prop := ∀ i, i ∉ ds → t.readReg i = s.readReg i

/-- Every flag but those listed is as before, and so are status bits 5 to 7. -/
def FlagsSameBut (fs : List Flag) (s t : State) : Prop :=
  (∀ f, f ∉ fs → t.flag f = s.flag f) ∧ ∀ b, 5 ≤ b → t.sr.getLsbD b = s.sr.getLsbD b

/-- Every data-memory cell but those listed reads as before. -/
def DataSameBut (ds : List DmAddr) (s t : State) : Prop := ∀ a, a ∉ ds → t.memRead a = s.memRead a

/-- Every instruction-memory cell reads as before. -/
def CodeSame (s t : State) : Prop := ∀ a, t.ifetch a = s.ifetch a

/-- The PC, the latches, the tick counter, the run status, the parameter and the free-value counter are as before. -/
def ControlSame (s t : State) : Prop :=
  t.pcHigh = s.pcHigh ∧ t.pcLow = s.pcLow ∧ t.l1 = s.l1 ∧ t.l2 = s.l2 ∧ t.l3 = s.l3 ∧ t.l4 = s.l4 ∧
    t.cycle = s.cycle ∧ t.runStatus = s.runStatus ∧ t.v2RegIndex = s.v2RegIndex ∧ t.freeCount = s.freeCount

/-- Word `op d v` decodes as instruction `i`, and its record has the type tag `ty` and dispatches as `i` (R82, R86, R88). -/
def EncodedAs (op : Opcode) (ty : InstrType) (d : RegNum) (v : Value2) (i : Instr) : Prop :=
  decode (packWord op d v) = i ∧ decodeRecord (packWord op d v) = ⟨op, d, v, ty⟩ ∧
    (decodeRecord (packWord op d v)).instr = i

/-! ### Inside a tick -/

/-- The state an instruction in L4 is dispatched in: the tick counted, the fetch-step and the decode-step done (R100, R111). -/
def frontEnd (s : State) : State :=
  decodeStep (if s.fetchedWord = sentinelWord then s.countTick.vacateL1 else s.countTick.latchFetched)

/-- From `u` to `t` the second half of the execute-step: an Occupied L3 is copied to L4 with its pc-tag and becomes Empty; else L4
is Empty (R107). Nothing else changes but the count of unspecified values drawn. -/
def MovesOn (u t : State) : Prop :=
  (∀ r, u.l3.payload = some r → t.l4 = ⟨some r, u.l3.pcTag⟩ ∧ t.l3.payload = none) ∧
    (u.l3.payload = none → t.l4.payload = none ∧ t.l3 = u.l3) ∧
    t = { u with l3 := t.l3, l4 := t.l4, freeCount := t.freeCount }

/-- The run status is not a fault. -/
def NotFaulted (s : State) : Prop := ∀ reason, s.runStatus ≠ .faulted reason

/-- The tick taken in state `s` dispatches a branch that is taken (R160, R161): it squashes. -/
def Squashes (s : State) : Prop :=
  ∃ r, s.l4.payload = some r ∧
    ((∃ d v, r.instr = .beqz d v ∧ s.readReg d = 0) ∨ ∃ d v i, r.instr = .br d v ∧ SourceIndex s v i)

/-- The address `n` words after `a`, in the 8-bit address space of the fetch (R27, R116). -/
def pcAfter (a : Byte) (n : Nat) : ImAddr := imAddrOf (a + BitVec.ofNat 8 n)

/-- A word of a straight-line program: not the sentinel, no BEQZ or BR, and no operand that any state makes a model fault. -/
def StraightLine (w : Word) : Prop :=
  w ≠ sentinelWord ∧ (∀ d v, decode w ≠ .beqz d v) ∧ (∀ d v, decode w ≠ .br d v) ∧ ∀ s e, exec (decode w) s ≠ .fault e

/-! ### Runs -/

/-- The block is Running after each of the first `n - 1` ticks from `s`, and the host's run from `s`, unbounded as by default, ends
Terminated after `n` of them (R112, R196). -/
def RunsFor (n : Nat) (s : State) : Prop :=
  (∀ k, k < n → ∃ t, ticks k s = .next t ∧ t.runStatus = .running ∧ t.cycle = k) ∧
    ∃ r, HostRuns Config.maxTicksDefault s r ∧ r.ticks = n ∧ r.state.runStatus = .terminated ∧ r.state.cycle = n

/-- The run of the words `ws`, loaded at address 0 of `s`, with no taken branch: it ends with tick `n + 2` of `n` words, and that
tick finds the last word's record in L4 and dispatches it (R123). -/
def RunsThrough (ws : List Word) (s : State) : Prop :=
  RunsFor (ws.length + 2) s ∧
    ∀ w, ws.getLast? = some w →
      ∃ t, ticks (ws.length + 1) s = .next t ∧ t.l4 = ⟨some (decodeRecord w), BitVec.ofNat 8 (ws.length - 1)⟩

/-- No record of the stream is EndOfRun. -/
def NoEndOfRun (stream : List Event) : Prop := ∀ d, Event.endOfRun d ∉ stream

/-- The last record of the stream is EndOfRun with the dump `d`, and no other record of it is EndOfRun (R180, R182). -/
def EndsWithDump (d : Dump) (stream : List Event) : Prop :=
  ∃ before, stream = before ++ [.endOfRun d] ∧ NoEndOfRun before

/-! ### Erasures -/

/-- An outcome with every next state changed by `f`. -/
def mapNext (f : State → State) : Result → Result
  | .next s => .next (f s)
  | .fault r => .fault r
  | .refused q => .refused q

/-- A latch without its pc-tag. -/
def untagLatch {α : Type} (l : Latch α) : Latch α := { l with pcTag := 0 }

/-- A record without its type tag. -/
def untypeRecord (r : DecodedRecord) : DecodedRecord := { r with type := .R }

/-- A latch of records without pc-tag and type tags. -/
def untagRecord (l : Latch DecodedRecord) : Latch DecodedRecord :=
  { payload := l.payload.map untypeRecord, pcTag := 0 }

/-- The state without what no rule reads: PC bits 15:8 (R29), the pc-tags (R30) and the type tags (R87). -/
def eraseUnread (s : State) : State :=
  { s with pcHigh := 0, l1 := untagLatch s.l1, l2 := untagRecord s.l2, l3 := untagRecord s.l3, l4 := untagRecord s.l4 }

/-- The state without the status register, which no instruction reads (R25). -/
def eraseFlags (s : State) : State := { s with sr := 0 }

/-! ### The invariant -/

/-- A latch of records holds only what the decode-step makes of a word that is not the sentinel (R35, R90). -/
def HoldsDecoded (l : Latch DecodedRecord) : Prop :=
  ∀ r, l.payload = some r → ∃ w, w ≠ sentinelWord ∧ r = decodeRecord w

/-- What holds between ticks. -/
structure Inv (s : State) : Prop where
  /-- Both memories are in canonical form (R60). -/
  memory : Memory.wf s = true
  /-- Status bits 5 to 7 are 0 (R51). -/
  reserved : ∀ b, 5 ≤ b → s.sr.getLsbD b = false
  /-- Data-memory cells 32 to 2047 hold 0 (R66). -/
  high : ∀ a : DmAddr, 32 ≤ a.val → s.memRead a = 0
  /-- L1 never holds the sentinel (R90, R103). -/
  fetched : ∀ w, s.l1.payload = some w → w ≠ sentinelWord
  /-- L2 holds the record of the word in L1, with its pc-tag (R106, R114). -/
  decoded : ∀ r, s.l2.payload = some r → ∃ w, s.l1.payload = some w ∧ r = decodeRecord w ∧ s.l2.pcTag = s.l1.pcTag
  /-- L3 is Empty at the end of an execute-step (R113); a model fault stops the tick before its end (R122). -/
  staged : NotFaulted s → s.l3.payload = none
  /-- L3 and L4 hold decoded instructions only (R35). -/
  records : HoldsDecoded s.l3 ∧ HoldsDecoded s.l4
  /-- A run that has Terminated has all four latches Empty (R112). -/
  ended : s.runStatus = .terminated → s.allLatchesEmpty = true

end Sys2Proof.Machine
end

