-- ==== Sys2Proof/Certificates/Slice0/Obligations.lean ====
section
/-! DEFINITION. The statements for the provers. -/

open Sys2Proof Sys2Proof.Machine

/-! ### Encoding (30_encoding.md) -/

/-- Decoding the word of a well-formed instruction gives it back, for every instruction and every operand (R82, R97, R90). -/
def Obligations.DecodeOfEncodeIsTheInstruction : Prop :=
  ∀ i : Instr, i.wellFormed = true → decode (encode i) = i

/-- Every word is the word of the one well-formed instruction it decodes to (R88, R91). -/
def Obligations.EncodeOfDecodeIsTheWord : Prop :=
  ∀ w : Word, (decode w).wellFormed = true ∧ encode (decode w) = w

/-- R83, R86: value2 is the low six bits minus 64 where bit 5 is set, in -32 to 31, whatever the opcode; the type tag is I for
3, 4, 5, 8, 9, 10, 11 and R for the others. Beside them the other two fields of R82, as numbers. -/
def Obligations.DecoderReadsTheFields : Prop :=
  ∀ w : Word,
    value2Int (decodeRecord w).value2 =
        (if w.getLsbD 5 = true then (w.toNat % 64 : Int) - 64 else (w.toNat % 64 : Int)) ∧
      -32 ≤ value2Int (decodeRecord w).value2 ∧ value2Int (decodeRecord w).value2 ≤ 31 ∧
      (decodeRecord w).opcode.toNat = w.toNat / 4096 ∧
      (decodeRecord w).operand1.val = w.toNat / 64 % 64 ∧
      (decodeRecord w).type = (if (decodeRecord w).opcode.toNat ∈ [3, 4, 5, 8, 9, 10, 11] then InstrType.I else InstrType.R)

/-- R97: the encoder packs `(opcode << 12) | (operand1 << 6) | (value2 mod 64)` for opcodes 0 to 11, it is the inverse of the
decoder there, and `MOVI R0 5` is 0x3005. -/
def Obligations.EncoderPacksTheFields : Prop :=
  (∀ (op : Opcode) (d : RegNum) (v : Value2), op.toNat < 12 →
    (encode (instrOf op d v)).toNat = op.toNat <<< 12 ||| d.val <<< 6 ||| (value2Int v % 64).toNat ∧
      (decodeRecord (encode (instrOf op d v))).opcode = op ∧
      (decodeRecord (encode (instrOf op d v))).operand1 = d ∧
      (decodeRecord (encode (instrOf op d v))).value2 = v ∧
      (decodeRecord (encode (instrOf op d v))).type = typeOf op) ∧
    encode (.movi 0 5) = 0x3005

/-- Sanity: words of the spec's own decode table and examples, one at least for each family (95_test_vectors.md 2.1). -/
def Obligations.ExampleWordsDecode : Prop :=
  decode 0x0001 = .add 0 1 ∧ decode 0x1FFF = .sub 63 (-1) ∧ decode 0x3FE0 = .movi 63 (-32) ∧ decode 0x4020 = .beqz 0 (-32) ∧
    decode 0x500F = .andi 0 15 ∧ decode 0x7146 = .br 5 6 ∧ decode 0x9FC1 = .sar 63 1 ∧ decode 0xA0BF = .ldr 2 (-1) ∧
    decode 0xB25F = .str 9 31 ∧ decode 0xD555 = .reserved13 21 21 ∧ decode 0xFFFE = .reserved15 63 (-2) ∧
    decode 0xFFFF = .sentinel

/-- The assembler accepts exactly the lines of R93 and R95 (their ranges are the spec's own decision D15, log 17); the word
of a line carries the mnemonic's opcode, the register and the operand as written, and is never the sentinel (R90, R94). -/
def Obligations.AssemblerLinesBecomeTheirWords : Prop :=
  ∀ l : AsmLine,
    (l.wellFormed = false → assembleLine l = none) ∧
      (l.wellFormed = true →
        ∃ w d v, assembleLine l = some w ∧ w ≠ sentinelWord ∧
          decodeRecord w = ⟨mnemonicOpcode l.mnemonic, d, v, l.mnemonic.type⟩ ∧
          l.operand1 = .reg d.val ∧ (l.operand2 = .reg v.toNat ∨ l.operand2 = .dec (value2Int v)))

/-- The load writes word k to instruction-memory cell k and changes nothing else; more than 1024 words are refused (R194;
the refusal is the spec's own decision D16, log 17). -/
def Obligations.LoadPlacesTheProgram : Prop :=
  ∀ (ws : List Word) (s : State),
    (ws.length ≤ 1024 →
      ∃ t, loadProgram ws s = .ok t ∧ t = { s with im := t.im } ∧
        (∀ (a : ImAddr) (h : a.val < ws.length), t.ifetch a = ws[a.val]'h) ∧
        ∀ a : ImAddr, ws.length ≤ a.val → t.ifetch a = s.ifetch a) ∧
      (1024 < ws.length → loadProgram ws s = .error .programTooLong)

/-! ### Arithmetic (41_arith.md) -/

/-- ADD's word, its result, its five flags and its frame (R130); and its model fault, which is the spec's own decision D6
(log 2, log 3). -/
def Obligations.AddMeaning : Prop :=
  ∀ (d : RegNum) (v : Value2) (s : State),
    EncodedAs 0 .R d v (.add d v) ∧
      (∀ i, SourceIndex s v i →
        ∃ t, exec (.add d v) s = .next t ∧
          xInt t d = wrap8Int (xInt s d + xInt s i) ∧
          (t.flag .C = true ↔ u8Int (xInt s d) + u8Int (xInt s i) > 255) ∧
          (t.flag .V = true ↔
            (xInt s d > 0 ∧ xInt s i > 0 ∧ xInt t d < 0) ∨ (xInt s d < 0 ∧ xInt s i < 0 ∧ xInt t d > 0)) ∧
          (t.flag .N = true ↔ xInt t d < 0) ∧ (t.flag .S = true ↔ xInt t d = 0) ∧ (t.flag .Z = true ↔ xInt t d = 0) ∧
          RegsSameBut [d] s t ∧ FlagsSameBut [.C, .V, .N, .S, .Z] s t ∧ DataSameBut [] s t ∧ CodeSame s t ∧
          ControlSame s t) ∧
      (SourceFaults s v → exec (.add d v) s = .fault .v2RegIndexNegative)

/-- SUB's word, its result, its four flags (C is not touched) and its frame (R131); and its model fault, which is the spec's own
decision D6 (log 2, log 3). -/
def Obligations.SubMeaning : Prop :=
  ∀ (d : RegNum) (v : Value2) (s : State),
    EncodedAs 1 .R d v (.sub d v) ∧
      (∀ i, SourceIndex s v i →
        ∃ t, exec (.sub d v) s = .next t ∧
          xInt t d = wrap8Int (xInt s d - xInt s i) ∧
          (t.flag .V = true ↔
            (xInt s d < 0 ∧ xInt s i > 0 ∧ xInt t d > 0) ∨ (xInt s d > 0 ∧ xInt s i < 0 ∧ xInt t d < 0)) ∧
          (t.flag .N = true ↔ xInt t d < 0) ∧ (t.flag .S = true ↔ xInt t d = 0) ∧ (t.flag .Z = true ↔ xInt t d = 0) ∧
          RegsSameBut [d] s t ∧ FlagsSameBut [.V, .N, .S, .Z] s t ∧ DataSameBut [] s t ∧ CodeSame s t ∧
          ControlSame s t) ∧
      (SourceFaults s v → exec (.sub d v) s = .fault .v2RegIndexNegative)

/-- MUL's word, its result, N and Z (C, V and S are kept) and its frame (R132); and its model fault, which is the spec's own
decision D6 (log 2, log 3). -/
def Obligations.MulMeaning : Prop :=
  ∀ (d : RegNum) (v : Value2) (s : State),
    EncodedAs 2 .R d v (.mul d v) ∧
      (∀ i, SourceIndex s v i →
        ∃ t, exec (.mul d v) s = .next t ∧
          xInt t d = wrap8Int (xInt s d * xInt s i) ∧
          (t.flag .N = true ↔ xInt t d < 0) ∧ (t.flag .Z = true ↔ xInt t d = 0) ∧
          RegsSameBut [d] s t ∧ FlagsSameBut [.N, .Z] s t ∧ DataSameBut [] s t ∧ CodeSame s t ∧ ControlSame s t) ∧
      (SourceFaults s v → exec (.mul d v) s = .fault .v2RegIndexNegative)

/-- MUL's low eight bits are the same whether the operands are read signed or unsigned (R132). -/
def Obligations.MulIgnoresSignedness : Prop :=
  ∀ a b : Byte,
    (mulResult a b).toInt = wrap8Int (a.toInt * b.toInt) ∧
      (mulResult a b).toInt = wrap8Int ((a.toNat : Int) * (b.toNat : Int))

/-- The Overflow formulas against the true results: ADD's V is true overflow but for -128 + -128, SUB's but for 0 - -128
(R44, R45). -/
def Obligations.OverflowMissesOneCase : Prop :=
  ∀ a b : Byte,
    (overflowAddOf a b (addResult a b) = true ↔
        (a.toInt + b.toInt < -128 ∨ a.toInt + b.toInt > 127) ∧ ¬(a.toInt = -128 ∧ b.toInt = -128)) ∧
      (overflowSubOf a b (subResult a b) = true ↔
        (a.toInt - b.toInt < -128 ∨ a.toInt - b.toInt > 127) ∧ ¬(a.toInt = 0 ∧ b.toInt = -128))

/-! ### Logic and shifts (42_logic_shift.md) -/

/-- R140: ANDI's word, its result bit by bit against the sign-extended immediate, N and Z, its frame; it never faults. -/
def Obligations.AndiMeaning : Prop :=
  ∀ (d : RegNum) (v : Value2) (s : State),
    EncodedAs 5 .I d v (.andi d v) ∧
      ∃ t, exec (.andi d v) s = .next t ∧
        (∀ b, b < 8 → ((t.readReg d).getLsbD b = true ↔ (s.readReg d).getLsbD b = true ∧ v.getLsbD (min b 5) = true)) ∧
        (t.flag .N = true ↔ xInt t d < 0) ∧ (t.flag .Z = true ↔ xInt t d = 0) ∧
        RegsSameBut [d] s t ∧ FlagsSameBut [.N, .Z] s t ∧ DataSameBut [] s t ∧ CodeSame s t ∧ ControlSame s t

/-- EOR's word, its result bit by bit, N and Z and its frame (R141); and its model fault, which is the spec's own decision D6
(log 2, log 3). -/
def Obligations.EorMeaning : Prop :=
  ∀ (d : RegNum) (v : Value2) (s : State),
    EncodedAs 6 .R d v (.eor d v) ∧
      (∀ i, SourceIndex s v i →
        ∃ t, exec (.eor d v) s = .next t ∧
          (∀ b, b < 8 → ((t.readReg d).getLsbD b = true ↔ (s.readReg d).getLsbD b ≠ (s.readReg i).getLsbD b)) ∧
          (t.flag .N = true ↔ xInt t d < 0) ∧ (t.flag .Z = true ↔ xInt t d = 0) ∧
          RegsSameBut [d] s t ∧ FlagsSameBut [.N, .Z] s t ∧ DataSameBut [] s t ∧ CodeSame s t ∧ ControlSame s t) ∧
      (SourceFaults s v → exec (.eor d v) s = .fault .v2RegIndexNegative)

/-- SAL's word, its result `wrap8(x * 2^imm)`, N and Z and its frame (R142); and its model fault, which is the spec's own
decision D8 (log 21). -/
def Obligations.SalMeaning : Prop :=
  ∀ (d : RegNum) (v : Value2) (s : State),
    EncodedAs 8 .I d v (.sal d v) ∧
      (0 ≤ value2Int v →
        ∃ t, exec (.sal d v) s = .next t ∧
          xInt t d = wrap8Int (xInt s d * 2 ^ (value2Int v).toNat) ∧
          (t.flag .N = true ↔ xInt t d < 0) ∧ (t.flag .Z = true ↔ xInt t d = 0) ∧
          RegsSameBut [d] s t ∧ FlagsSameBut [.N, .Z] s t ∧ DataSameBut [] s t ∧ CodeSame s t ∧ ControlSame s t) ∧
      (value2Int v < 0 → exec (.sal d v) s = .fault .shiftCountNegative)

/-- SAR's word, its result the floor of `x / 2^imm` (`q` with `q * 2^imm ≤ x < (q + 1) * 2^imm`), N and Z and its frame; and its
model fault. The sign fill is the spec's own decision D9 (log 9), the fault its decision D8 (log 21). -/
def Obligations.SarMeaning : Prop :=
  ∀ (d : RegNum) (v : Value2) (s : State),
    EncodedAs 9 .I d v (.sar d v) ∧
      (0 ≤ value2Int v →
        ∃ t, exec (.sar d v) s = .next t ∧
          xInt t d * 2 ^ (value2Int v).toNat ≤ xInt s d ∧ xInt s d < (xInt t d + 1) * 2 ^ (value2Int v).toNat ∧
          (t.flag .N = true ↔ xInt t d < 0) ∧ (t.flag .Z = true ↔ xInt t d = 0) ∧
          RegsSameBut [d] s t ∧ FlagsSameBut [.N, .Z] s t ∧ DataSameBut [] s t ∧ CodeSame s t ∧ ControlSame s t) ∧
      (value2Int v < 0 → exec (.sar d v) s = .fault .shiftCountNegative)

/-- The shift counts (R144, the spec's own decision D8, log 21): a negative count is a model fault of SAL and of SAR; a
count of 0 to 31 is defined; a count of 8 or more shifts every bit out: SAL gives 0, SAR gives 0 or -1. -/
def Obligations.ShiftCountRule : Prop :=
  ∀ (d : RegNum) (v : Value2) (s : State),
    (value2Int v < 0 → exec (.sal d v) s = .fault .shiftCountNegative ∧ exec (.sar d v) s = .fault .shiftCountNegative) ∧
      (0 ≤ value2Int v →
        ∃ t u, exec (.sal d v) s = .next t ∧ exec (.sar d v) s = .next u ∧
          (8 ≤ value2Int v → xInt t d = 0 ∧ xInt u d = (if xInt s d < 0 then -1 else 0)))

/-- On eight bits SAL is the left shift of the bits and SAR the right shift that repeats the sign bit (R142, R144; the
sign fill is the spec's own decision D9, log 9). -/
def Obligations.ShiftsAreBitShifts : Prop :=
  ∀ (x : Byte) (n : Nat), salResult x n = x <<< n ∧ sarResult x n = x.sshiftRight n

/-! ### Move and memory (43_move_mem.md, 20_memory.md) -/

/-- R150: MOVI's word, its result, no flag, its frame. -/
def Obligations.MoviMeaning : Prop :=
  ∀ (d : RegNum) (v : Value2) (s : State),
    EncodedAs 3 .I d v (.movi d v) ∧
      ∃ t, exec (.movi d v) s = .next t ∧ xInt t d = value2Int v ∧
        RegsSameBut [d] s t ∧ FlagsSameBut [] s t ∧ DataSameBut [] s t ∧ CodeSame s t ∧ ControlSame s t

/-- LDR's word, its result, no flag and its frame (R151); and its model fault, which is the spec's own decision D7 (log 21). -/
def Obligations.LdrMeaning : Prop :=
  ∀ (d : RegNum) (v : Value2) (s : State),
    EncodedAs 10 .I d v (.ldr d v) ∧
      (∀ ea : DmAddr, (ea.val : Int) = value2Int v →
        ∃ t, exec (.ldr d v) s = .next t ∧ t.readReg d = s.memRead ea ∧
          RegsSameBut [d] s t ∧ FlagsSameBut [] s t ∧ DataSameBut [] s t ∧ CodeSame s t ∧ ControlSame s t) ∧
      (value2Int v < 0 → exec (.ldr d v) s = .fault .dataAddressNegative)

/-- STR's word, the one cell it stores to (the effective address of R153), no register and no flag, its frame (R152); and
its model fault, which is the spec's own decision D7 (log 21). -/
def Obligations.StrMeaning : Prop :=
  ∀ (d : RegNum) (v : Value2) (s : State),
    EncodedAs 11 .I d v (.str d v) ∧
      (∀ ea : DmAddr, dataAddress v = .ok ea →
        ∃ t, exec (.str d v) s = .next t ∧ (ea.val : Int) = value2Int v ∧ t.memRead ea = s.readReg d ∧
          DataSameBut [ea] s t ∧ RegsSameBut [] s t ∧ FlagsSameBut [] s t ∧ CodeSame s t ∧ ControlSame s t) ∧
      (value2Int v < 0 → exec (.str d v) s = .fault .dataAddressNegative)

/-- The effective address is value2 itself, data-memory cell 0 to 31 (R153); below 0 the instruction raises the model fault,
which is the spec's own decision D7 (log 21). -/
def Obligations.AddressingRule : Prop :=
  ∀ v : Value2,
    (0 ≤ value2Int v → ∃ ea, dataAddress v = .ok ea ∧ (ea.val : Int) = value2Int v ∧ ea.val ≤ 31) ∧
      (value2Int v < 0 → dataAddress v = .error .dataAddressNegative ∧
        ∀ d s, exec (.ldr d v) s = .fault .dataAddressNegative ∧ exec (.str d v) s = .fault .dataAddressNegative)

/-- A load of the address just stored to gives the value stored (R71). -/
def Obligations.LoadAfterStoreReadsTheStore : Prop :=
  ∀ (d e : RegNum) (v : Value2) (s t : State), exec (.str d v) s = .next t →
    ∃ u, exec (.ldr e v) t = .next u ∧ u.readReg e = s.readReg d

/-- Two memories in canonical form that read the same everywhere are the same lists (the model's own form of R60,
log 16). -/
def Obligations.CanonicalMemoriesAreEqual : Prop :=
  ∀ s t : State, Memory.wf s = true → Memory.wf t = true →
    (∀ a, s.ifetch a = t.ifetch a) → (∀ a, s.memRead a = t.memRead a) → s.im = t.im ∧ s.dm = t.dm

/-- No instruction and no step writes instruction memory (R62, R73). -/
def Obligations.InstructionMemoryIsNeverWritten : Prop :=
  (∀ i s t, exec i s = .next t → CodeSame s t) ∧ ∀ s t, step s = .next t → CodeSame s t

/-- A step changes no data-memory cell above 31 (R66). -/
def Obligations.DataMemoryAboveThirtyOneIsNeverWritten : Prop :=
  ∀ s t, step s = .next t → ∀ a : DmAddr, 32 ≤ a.val → t.memRead a = s.memRead a

/-! ### Control transfer and reserved opcodes (44_control.md) -/

/-- BEQZ: its word; where Rd is 0 the PC's low byte is `(PCView + value2 - 1) mod 256` and L2, L3, L4 are squashed; else nothing
changes (R160, R108). PC bits 15:8 and the count of unspecified values are left open. -/
def Obligations.BeqzMeaning : Prop :=
  ∀ (d : RegNum) (v : Value2) (s : State),
    EncodedAs 4 .I d v (.beqz d v) ∧
      (xInt s d = 0 →
        ∃ t, exec (.beqz d v) s = .next t ∧ (t.pcView.toNat : Int) = ((s.pcView.toNat : Int) + value2Int v - 1) % 256 ∧
          t.l2 = ⟨none, 0⟩ ∧ t.l3 = ⟨none, 0⟩ ∧ t.l4 = ⟨none, 0⟩ ∧ t.l1 = s.l1 ∧
          t.cycle = s.cycle ∧ t.runStatus = s.runStatus ∧ t.v2RegIndex = s.v2RegIndex ∧
          RegsSameBut [] s t ∧ FlagsSameBut [] s t ∧ DataSameBut [] s t ∧ CodeSame s t) ∧
      (xInt s d ≠ 0 → exec (.beqz d v) s = .next s)

/-- BR: its word; the PC's low byte is Rs read unsigned, whatever Rd holds, and L2, L3, L4 are squashed; and its model fault,
the spec's own decision D6 (R161, R108; log 2, log 3). PC bits 15:8 and the count of unspecified values are left open. -/
def Obligations.BrMeaning : Prop :=
  ∀ (d : RegNum) (v : Value2) (s : State),
    EncodedAs 7 .R d v (.br d v) ∧
      (∀ i, SourceIndex s v i →
        ∃ t, exec (.br d v) s = .next t ∧ (t.pcView.toNat : Int) = u8Int (xInt s i) ∧
          t.l2 = ⟨none, 0⟩ ∧ t.l3 = ⟨none, 0⟩ ∧ t.l4 = ⟨none, 0⟩ ∧ t.l1 = s.l1 ∧
          t.cycle = s.cycle ∧ t.runStatus = s.runStatus ∧ t.v2RegIndex = s.v2RegIndex ∧
          RegsSameBut [] s t ∧ FlagsSameBut [] s t ∧ DataSameBut [] s t ∧ CodeSame s t) ∧
      (SourceFaults s v → exec (.br d v) s = .fault .v2RegIndexNegative)

/-- R162: every word of opcodes 12 to 15 but 0xFFFF decodes with type R and is dispatched as a reserved opcode, and a reserved
opcode leaves all state unchanged. -/
def Obligations.ReservedOpcodesDoNothing : Prop :=
  (∀ w : Word, 12 ≤ (opcodeField w).toNat → w ≠ 0xFFFF →
    (decodeRecord w).type = .R ∧ decode w = (decodeRecord w).instr ∧ ∀ s, exec (decode w) s = .next s) ∧
    ∀ (d : RegNum) (v : Value2) (s : State),
      exec (.reserved12 d v) s = .next s ∧ exec (.reserved13 d v) s = .next s ∧
        exec (.reserved14 d v) s = .next s ∧ exec (.reserved15 d v) s = .next s

/-- The sentinel: the fetch-step runs it, L1 becomes Empty, and nothing else changes but the count of unspecified values drawn
(R103). -/
def Obligations.SentinelMeaning : Prop :=
  decode 0xFFFF = .sentinel ∧
    ∀ s : State,
      (s.fetchedWord = 0xFFFF → fetchStep s = exec .sentinel s) ∧
        ∃ t, exec .sentinel s = .next t ∧ t.l1.payload = none ∧ t = { s with l1 := t.l1, freeCount := t.freeCount } ∧
          RegsSameBut [] s t ∧ FlagsSameBut [] s t ∧ DataSameBut [] s t ∧ CodeSame s t

/-! ### What instructions may not do -/

/-- `regIndex2` (R92, the spec's own decision D6, log 2): value2 itself where it is not negative; else the raw six-bit field
with `masked`, and the model fault with `fault`, which is the default. -/
def Obligations.SecondRegisterRule : Prop :=
  (∀ (mode : V2RegIndex) (v : Value2),
    (0 ≤ value2Int v → ∃ i, regIndex2 mode v = .ok i ∧ (i.val : Int) = value2Int v) ∧
      (value2Int v < 0 → mode = .masked →
        ∃ i, regIndex2 mode v = .ok i ∧ (i.val : Int) = value2Int v + 64 ∧ i.val = v.toNat ∧ 32 ≤ i.val) ∧
      (value2Int v < 0 → mode = .fault → regIndex2 mode v = .error .v2RegIndexNegative)) ∧
    State.reset.v2RegIndex = .fault

/-- Where no negative value2 is used as a register index, the parameter V2_REG_INDEX makes no difference (R92). -/
def Obligations.ParameterMattersOnlyForNegativeIndex : Prop :=
  ∀ (i : Instr) (s : State) (mode : V2RegIndex),
    (∀ d v, i = .add d v ∨ i = .sub d v ∨ i = .mul d v ∨ i = .eor d v ∨ i = .br d v → 0 ≤ value2Int v) →
      exec i { s with v2RegIndex := mode } = mapNext (fun t => { t with v2RegIndex := mode }) (exec i s)

/-- An instruction raises a model fault exactly in the rows of the closed list of R173 (the spec's own decisions D6, D7 and D8,
log 3, log 21). Beside it: no instruction is refused. -/
def Obligations.ModelFaultsAreTheClosedList : Prop :=
  ∀ (i : Instr) (s : State),
    (∀ e, exec i s = .fault e ↔
      (∃ d v, (i = .add d v ∨ i = .sub d v ∨ i = .mul d v ∨ i = .eor d v ∨ i = .br d v) ∧
          value2Int v < 0 ∧ s.v2RegIndex = .fault ∧ e = .v2RegIndexNegative) ∨
        (∃ d v, (i = .ldr d v ∨ i = .str d v) ∧ value2Int v < 0 ∧ e = .dataAddressNegative) ∨
        ∃ d v, (i = .sal d v ∨ i = .sar d v) ∧ value2Int v < 0 ∧ e = .shiftCountNegative) ∧
      ∀ q, exec i s ≠ .refused q

/-- Only the instructions of the table of R133 write a flag (R25, R50). -/
def Obligations.FlagsChangeOnlyByTheTable : Prop :=
  ∀ (i : Instr) (s t : State), exec i s = .next t →
    (t.flag .C ≠ s.flag .C → ∃ d v, i = .add d v) ∧
      (t.flag .V ≠ s.flag .V ∨ t.flag .S ≠ s.flag .S → ∃ d v, i = .add d v ∨ i = .sub d v) ∧
      (t.flag .N ≠ s.flag .N ∨ t.flag .Z ≠ s.flag .Z →
        ∃ d v, i = .add d v ∨ i = .sub d v ∨ i = .mul d v ∨ i = .andi d v ∨ i = .eor d v ∨ i = .sal d v ∨ i = .sar d v)

/-- Only ADD, SUB, MUL, MOVI, ANDI, EOR, SAL, SAR and LDR write a register, and only `x[operand1]` (R22). -/
def Obligations.RegistersChangeOnlyByTheList : Prop :=
  ∀ (i : Instr) (s t : State) (r : RegNum), exec i s = .next t → t.readReg r ≠ s.readReg r →
    ∃ v, i = .add r v ∨ i = .sub r v ∨ i = .mul r v ∨ i = .movi r v ∨ i = .andi r v ∨ i = .eor r v ∨ i = .sal r v ∨
      i = .sar r v ∨ i = .ldr r v

/-- Only a taken BEQZ and BR write the PC or empty L2, L3, L4; no instruction of the execute-step touches L1 (R26, R104,
R108). -/
def Obligations.OnlyTakenBranchesMoveThePc : Prop :=
  ∀ (i : Instr) (s t : State), exec i s = .next t → i ≠ .sentinel →
    t.l1 = s.l1 ∧
      ((t.pc = s.pc ∧ t.l2 = s.l2 ∧ t.l3 = s.l3 ∧ t.l4 = s.l4) ∨
        (∃ d v, i = .beqz d v ∧ s.readReg d = 0) ∨ ∃ d v, i = .br d v)

/-- Status bits 5 to 7 are 0 after reset, and no step writes them (R51, which the spec derives from R24 and R43 to R48). -/
def Obligations.StatusBitsFiveToSevenStayClear : Prop :=
  (∀ b, 5 ≤ b → b ≤ 7 → State.reset.sr.getLsbD b = false) ∧
    ∀ s t, step s = .next t → ∀ b, 5 ≤ b → b ≤ 7 → t.sr.getLsbD b = s.sr.getLsbD b

/-- No step reads a flag: from states that differ only in the status register, a step leaves states that differ only there
(R25). -/
def Obligations.FlagsAreNeverRead : Prop :=
  ∀ (s : State) (x : Byte), mapNext eraseFlags (step { s with sr := x }) = mapNext eraseFlags (step s)

/-- No step reads PC bits 15:8, a pc-tag or a type tag: erasing them before a step or after it is the same (R29, R30, R87). -/
def Obligations.UnreadStateIsNeverRead : Prop :=
  ∀ s : State, mapNext eraseUnread (step (eraseUnread s)) = mapNext eraseUnread (step s)

/-! ### Reset (70_reset_and_hazards.md, 10_state.md R52) -/

/-- Reset from any state leaves the table of reset values (R52), and a second reset changes nothing (R191); State.reset is
such a state. That the latches are Empty, the tick count 0 and the status Running are the spec's own decisions D2, D14 and
D21 (log 10, log 13, log 3). -/
def Obligations.ResetLeavesTheTable : Prop :=
  ∀ s : State, ∀ t, t = resetProcessor s ∨ t = State.reset →
    (∀ i, t.readReg i = 0) ∧ t.sr = 0 ∧ (∀ f, t.flag f = false) ∧ t.pc = 0 ∧ (∀ a, t.ifetch a = 0xFFFF) ∧
      (∀ a, t.memRead a = 0) ∧ t.l1 = ⟨none, 0⟩ ∧ t.l2 = ⟨none, 0⟩ ∧ t.l3 = ⟨none, 0⟩ ∧ t.l4 = ⟨none, 0⟩ ∧
      t.cycle = 0 ∧ t.runStatus = .running ∧ resetProcessor t = t

/-! ### The pipeline (40_pipeline.md) -/

/-- A step of a Running block runs the instruction in L4 on the state that the tick's fetch-step and decode-step left, then
moves L3 on and checks termination; a model fault is recorded there (R100, R101, R107, R111, R122: its recording is the
spec's own decision D21, log 3). -/
def Obligations.StepRunsTheInstructionInLatchFour : Prop :=
  ∀ s : State, s.runStatus = .running →
    (∀ r, s.l4.payload = some r →
      (∀ t, exec r.instr (frontEnd s) = .next t → step s = .next (checkTermination t.vacateL4.advanceL3)) ∧
        ∀ e, exec r.instr (frontEnd s) = .fault e → step s = .next ((frontEnd s).recordFault e)) ∧
      (s.l4.payload = none → step s = .next (checkTermination (frontEnd s).advanceL3))

/-- R102: the fetch-step on the sentinel and on any other word. -/
def Obligations.FetchStepRule : Prop :=
  ∀ s : State,
    (s.ifetch (imAddrOf s.pcView) = sentinelWord →
      ∃ t, fetchStep s = .next t ∧ t.l1.payload = none ∧ t = { s with l1 := t.l1, freeCount := t.freeCount }) ∧
      (s.ifetch (imAddrOf s.pcView) ≠ sentinelWord →
        ∃ t, fetchStep s = .next t ∧ t.l1 = ⟨some (s.ifetch (imAddrOf s.pcView)), s.pcView⟩ ∧ t.pc = s.pc + 1 ∧
          t = { s with l1 := t.l1, pcHigh := t.pcHigh, pcLow := t.pcLow })

/-- R105, R106: an Occupied L2 is promoted to L3 with its pc-tag, then an Occupied L1 is decoded into L2 with its pc-tag; an
Empty L2 leaves L3, an Empty L1 leaves L2 Empty. -/
def Obligations.DecodeStepRule : Prop :=
  ∀ s t : State, t = decodeStep s →
    (∀ r, s.l2.payload = some r → t.l3 = ⟨some r, s.l2.pcTag⟩) ∧ (s.l2.payload = none → t.l3 = s.l3) ∧
      (∀ w, s.l1.payload = some w → t.l2 = ⟨some (decodeRecord w), s.l1.pcTag⟩) ∧
      (s.l1.payload = none → t.l2.payload = none) ∧
      t = { s with l2 := t.l2, l3 := t.l3, freeCount := t.freeCount }

/-- R107: an Occupied L4 is dispatched and becomes Empty; then an Occupied L3 moves to L4 and becomes Empty, else L4 is
Empty. -/
def Obligations.ExecuteStepRule : Prop :=
  ∀ s : State,
    (s.l4.payload = none → ∃ t, executeStep s = .next t ∧ MovesOn s t) ∧
      ∀ r u, s.l4.payload = some r → exec r.instr s = .next u → ∃ t, executeStep s = .next t ∧ MovesOn u t

/-- A model fault stops the tick with the run status Faulted: the fetch-step and the decode-step have taken effect, no
register, flag, memory cell or PC is written by the instruction (R122, the spec's own decision D21). No further tick is taken
(the answer `fault` is the model's choice, log 3). -/
def Obligations.ModelFaultStopsTheTick : Prop :=
  ∀ (s : State) (r : DecodedRecord) (e : Fault), s.runStatus = .running → s.l4.payload = some r →
    exec r.instr (frontEnd s) = .fault e →
      ∃ t, step s = .next t ∧ t = { frontEnd s with runStatus := .faulted e } ∧
        RegsSameBut [] s t ∧ FlagsSameBut [] s t ∧ DataSameBut [] s t ∧ CodeSame s t ∧ t.pc = (frontEnd s).pc ∧
        step t = .fault e

/-- A tick that dispatches a taken branch leaves L2, L3 and L4 Empty, L2 and L3 with the squash's pc-tag 0, L1 as its fetch-step
wrote it, and the PC at the target, from where the next fetch reads (R108, R109, R118). That L4 too still has pc-tag 0 at the
end of the tick is the model's choice: R107 marks it Empty again after the squash, and R36 leaves that tag open (log 6). -/
def Obligations.TakenBranchSquashesAndRedirects : Prop :=
  ∀ (s : State) (r : DecodedRecord) (target : Byte), s.runStatus = .running → s.l4.payload = some r →
    ((∃ d v, r.instr = .beqz d v ∧ s.readReg d = 0 ∧
        (target.toNat : Int) = (((frontEnd s).pcView.toNat : Int) + value2Int v - 1) % 256) ∨
      ∃ d v i, r.instr = .br d v ∧ SourceIndex s v i ∧ target = s.readReg i) →
      ∃ t, step s = .next t ∧ t.l2 = ⟨none, 0⟩ ∧ t.l3 = ⟨none, 0⟩ ∧ t.l4 = ⟨none, 0⟩ ∧ t.l1 = (frontEnd s).l1 ∧
        t.pcView = target ∧ t.fetchedWord = s.ifetch (imAddrOf target)

/-- A taken branch ends the run exactly where the tick that dispatches it fetched the sentinel (R119). -/
def Obligations.TakenBranchEndsTheRunAtTheSentinel : Prop :=
  ∀ s t : State, s.runStatus = .running → Squashes s → step s = .next t →
    (s.fetchedWord = sentinelWord → t.runStatus = .terminated) ∧ (s.fetchedWord ≠ sentinelWord → t.runStatus = .running)

/-- A tick with no taken branch leaves L2 holding the record of L1's word exactly where L1 holds a word, and L4 holding what L2
held; L3 is Empty (R113, R114). -/
def Obligations.LatchesAfterATick : Prop :=
  ∀ s t : State, Inv s → s.runStatus = .running → step s = .next t → NotFaulted t →
    t.l3.payload = none ∧
      (¬ Squashes s → (∀ w, t.l1.payload = some w → t.l2.payload = some (decodeRecord w)) ∧
        (t.l1.payload = none → t.l2.payload = none) ∧ t.l4.payload = s.l2.payload) ∧
      (Squashes s → t.l2.payload = none ∧ t.l4.payload = none)

/-- A Running block takes its tick whatever its latches hold; after the tick it is Terminated exactly where all four latches
are Empty (R112; that the check comes after the tick is the spec's own decision D3, log 11; a faulted tick apart, R122). The
host's loop ticks once at least and goes on exactly while the block is Running and the bound is not met; with a bound of 1 or
more it stops within that many ticks (R196; the bound 0, which no count after a tick meets, log 15). -/
def Obligations.TerminationRule : Prop :=
  (∀ s : State, s.runStatus = .running →
    ∃ t, step s = .next t ∧ t.cycle = s.cycle + 1 ∧
      (NotFaulted t → (t.runStatus = .terminated ↔
        t.l1.payload = none ∧ t.l2.payload = none ∧ t.l3.payload = none ∧ t.l4.payload = none))) ∧
    (∀ (bound : MaxTicks) (s : State) (r : Run), s.runStatus = .running → HostRuns bound s r →
      1 ≤ r.ticks ∧ ticks r.ticks s = .next r.state ∧ (r.state.runStatus ≠ .running ∨ bound = .bounded r.ticks) ∧
        ∀ k, 1 ≤ k → k < r.ticks → bound ≠ .bounded k ∧ ∃ t, ticks k s = .next t ∧ t.runStatus = .running) ∧
    ∀ (m : Nat) (s : State), s.runStatus = .running → 1 ≤ m → ∃ r, HostRuns (.bounded m) s r ∧ r.ticks ≤ m

/-- After a stop no tick is taken: a Terminated state stays as it is, a Faulted one answers its fault (R53, R184; that it
answers so is the model's choice, log 3 and log 4). -/
def Obligations.StoppedRunsDoNotTick : Prop :=
  ∀ s : State, (s.runStatus = .terminated → step s = .next s) ∧ ∀ e, s.runStatus = .faulted e → step s = .fault e

/-- A word fetched in one tick is decoded into L2 in that tick, promoted to L3 and moved to L4 in the next, and dispatched in
the one after, unless a squash (or a model fault) in the first two discards it (R115, which the spec derives from R102 to
R107). -/
def Obligations.FetchToDispatchTakesTwoTicks : Prop :=
  ∀ s s1 s2 : State, s.runStatus = .running → s.fetchedWord ≠ sentinelWord →
    step s = .next s1 → ¬ Squashes s → step s1 = .next s2 → ¬ Squashes s1 → s2.runStatus = .running →
      s1.l2 = ⟨some (decodeRecord s.fetchedWord), s.pcView⟩ ∧
        (frontEnd s1).l3 = ⟨some (decodeRecord s.fetchedWord), s.pcView⟩ ∧
        s2.l4 = ⟨some (decodeRecord s.fetchedWord), s.pcView⟩ ∧
        (∀ t, exec (decode s.fetchedWord) (frontEnd s2) = .next t →
          step s2 = .next (checkTermination t.vacateL4.advanceL3)) ∧
        ∀ e, exec (decode s.fetchedWord) (frontEnd s2) = .fault e → step s2 = .next ((frontEnd s2).recordFault e)

/-- What PCView is when the word fetched two ticks before is dispatched (R116, which the spec derives). -/
def Obligations.PcViewAtDispatch : Prop :=
  ∀ s s1 s2 : State, s.runStatus = .running → s.fetchedWord ≠ sentinelWord →
    step s = .next s1 → ¬ Squashes s → step s1 = .next s2 → ¬ Squashes s1 → s2.runStatus = .running →
      (s.ifetch (pcAfter s.pcView 1) = sentinelWord → (frontEnd s2).pcView = s.pcView + 1) ∧
        (s.ifetch (pcAfter s.pcView 1) ≠ sentinelWord → s.ifetch (pcAfter s.pcView 2) = sentinelWord →
          (frontEnd s2).pcView = s.pcView + 2) ∧
        (s.ifetch (pcAfter s.pcView 1) ≠ sentinelWord → s.ifetch (pcAfter s.pcView 2) ≠ sentinelWord →
          (frontEnd s2).pcView = s.pcView + 3)

/-- Once a fetch-step reads the sentinel the run ends with that tick or the next one: at its end only L4 may be Occupied
(R124; a model fault apart). -/
def Obligations.SentinelDrainsThePipeline : Prop :=
  ∀ s s1 : State, s.runStatus = .running → s.fetchedWord = sentinelWord → step s = .next s1 → NotFaulted s1 →
    s1.l1.payload = none ∧ s1.l2.payload = none ∧ s1.l3.payload = none ∧
      (s1.runStatus = .terminated ∨
        s1.runStatus = .running ∧ ∃ s2, step s1 = .next s2 ∧ (NotFaulted s2 → s2.runStatus = .terminated))

/-- The run length of straight-line code (R123): of no words 1 tick, in which nothing is dispatched; of 1 to 255 words that
number plus 2 ticks, both where no word can branch or fault in any state and where, as with a BEQZ that is not taken, none does
in this run; with all of the first 256 words straight-line the run never stops by itself. -/
def Obligations.StraightLineRunLength : Prop :=
  (∀ m : State, RunsFor 1 (resetProcessor m) ∧ (tickEvents (resetProcessor m)).execute = []) ∧
    (∀ (ws : List Word) (m s : State), 1 ≤ ws.length → ws.length ≤ 255 → (∀ w ∈ ws, StraightLine w) →
      loadProgram ws (resetProcessor m) = .ok s → RunsThrough ws s) ∧
    (∀ (ws : List Word) (m s : State), 1 ≤ ws.length → ws.length ≤ 255 → (∀ w ∈ ws, w ≠ sentinelWord) →
      loadProgram ws (resetProcessor m) = .ok s →
      (∀ k t, k ≤ ws.length + 2 → ticks k s = .next t → ¬ Squashes t ∧ NotFaulted t) → RunsThrough ws s) ∧
    ∀ (ws : List Word) (m s : State), 256 ≤ ws.length → (∀ w ∈ ws.take 256, StraightLine w) →
      loadProgram ws (resetProcessor m) = .ok s → ∀ r, ¬ HostRuns Config.maxTicksDefault s r

/-! ### The invariant -/

/-- The invariant holds after reset. -/
def Obligations.InvariantAtReset : Prop := Inv State.reset

/-- Every step keeps the invariant: canonical memories, status bits 5 to 7 clear, data memory above 31 zero, L1 never the
sentinel, L2 the record of L1's word, L3 Empty between ticks, decoded records only, a Terminated run's latches Empty. -/
def Obligations.StepKeepsTheInvariant : Prop :=
  ∀ s t : State, Inv s → step s = .next t → Inv t

/-! ### Placing and loading -/

/-- The next step after withFetchWord dispatches the word; and the state it makes from reset is the one two ticks after a
load of that word at address 0, but for the tick count and what no rule reads (the model's own reading of the load, log 1).
-/
def Obligations.PlacedWordIsTwoTicksAfterItsLoad : Prop :=
  ∀ (m : State) (w : Word), w ≠ sentinelWord →
    (∀ n, ((m.withFetchWord n w.toNat).l4.payload.map DecodedRecord.instr) = some (decode w) ∧
      (m.withFetchWord n w.toNat).runStatus = .running) ∧
      ∃ t, ticks 2 ((resetProcessor m).writeIm 0 w) = .next t ∧
        eraseUnread { t with cycle := 0, freeCount := 0 } =
          eraseUnread { (resetProcessor m).withFetchWord 16 w.toNat with freeCount := 0 }

/-! ### Observation (60_exceptions.md) -/

/-- Every change of a register in a tick is reported by a RegWrite record with the new value, and every change of a flag by a
FlagUpdate record (R22, R180; the records are the model's reading of D11, log 14). -/
def Obligations.ChangesAreObserved : Prop :=
  ∀ s t : State, s.runStatus = .running → step s = .next t →
    (∀ i, t.readReg i ≠ s.readReg i → Event.regWrite t.cycle i (t.readReg i) ∈ (tickEvents s).execute) ∧
      ∀ f, t.flag f ≠ s.flag f → Event.flagUpdate t.cycle f (t.flag f) ∈ (tickEvents s).execute

/-- Every record of a tick, in any stream the tick may emit, carries the tick's number (R42, the spec's own decision D14,
log 13); and in any stream of a run every record of a tick precedes every record of a later one (R181). -/
def Obligations.RecordsCarryTheTickNumber : Prop :=
  (∀ (s : State) (stream : List Event) (e : Event), (tickEvents s).Admits stream → e ∈ stream → eventCycle e = s.cycle + 1) ∧
    ∀ (bound : MaxTicks) (s : State) (r : Run) (stream : List Event), HostRuns bound s r → AdmitsStream r.events stream →
      stream.Pairwise (fun a b => eventCycle a ≤ eventCycle b) ∧
        ∀ e ∈ stream, s.cycle < eventCycle e ∧ eventCycle e ≤ s.cycle + r.ticks

/-- The EndOfRun record is emitted exactly by the tick that terminates the run, last, with the dump of the state it leaves
(R180, R182): of every stream the tick may emit the last record is it and no other is, and a stream of any other step holds none.
So a run from a Running block has the records of as many ticks as it counts, and of every stream it may emit the last record,
and no other, is EndOfRun where it ended Terminated, and none is where it did not. -/
def Obligations.EndOfRunIsReportedOnce : Prop :=
  (∀ s t : State, step s = .next t →
    ((s.runStatus = .running ∧ t.runStatus = .terminated) →
      (tickEvents s).ending = [.endOfRun (dump t)] ∧
        ∀ stream, (tickEvents s).Admits stream → EndsWithDump (dump t) stream) ∧
      (¬(s.runStatus = .running ∧ t.runStatus = .terminated) →
        (tickEvents s).ending = [] ∧ ∀ stream, (tickEvents s).Admits stream → NoEndOfRun stream)) ∧
    ∀ (bound : MaxTicks) (s : State) (r : Run), s.runStatus = .running → HostRuns bound s r →
      r.events.length = r.ticks ∧ (∀ e ∈ r.events.dropLast, e.ending = []) ∧
        (∀ e, r.events.getLast? = some e →
          e.ending = if r.state.runStatus = .terminated then [.endOfRun (dump r.state)] else []) ∧
        ∀ stream, AdmitsStream r.events stream →
          (r.state.runStatus = .terminated → EndsWithDump (dump r.state) stream) ∧
            (r.state.runStatus ≠ .terminated → NoEndOfRun stream)
end

