-- ==== Sys2Proof/Laws/Encoding.lean ====
section
/-! SUPPORT. The three fields of a packed word. -/

namespace Sys2Proof

/-- A packed word's opcode field (R81). -/
@[simp] theorem opcodeField_packWord (op : Opcode) (d : RegNum) (v : Value2) : opcodeField (packWord op d v) = op := by
  ext i hi
  simp only [opcodeField, packWord, BitVec.getElem_extractLsb', BitVec.getLsbD_append]
  simp [show ¬ 12 + i < 6 by omega, show ¬ 12 + i - 6 < 6 by omega, show 12 + i - 6 - 6 = i by omega,
    BitVec.getLsbD_eq_getElem hi]

/-- A packed word's operand1 field (R81). -/
@[simp] theorem operand1Field_packWord (op : Opcode) (d : RegNum) (v : Value2) : operand1Field (packWord op d v) = d := by
  have h : (packWord op d v).extractLsb' 6 6 = BitVec.ofFin d := by
    ext i hi
    simp only [packWord, BitVec.getElem_extractLsb', BitVec.getLsbD_append]
    simp [show ¬ 6 + i < 6 by omega, show 6 + i - 6 = i by omega, hi]
  simp [operand1Field, h]

/-- A packed word's value2 field (R81). -/
@[simp] theorem value2Field_packWord (op : Opcode) (d : RegNum) (v : Value2) : value2Field (packWord op d v) = v := by
  ext i hi
  simp only [value2Field, packWord, BitVec.getElem_extractLsb', BitVec.getLsbD_append]
  simp [hi]

end Sys2Proof
end

