-- ==== Sys2Proof/Laws/State.lean ====
section
/-! SUPPORT. One lemma per field per update of the state, each true by `rfl`, so that no proof unfolds a record update. -/

namespace Sys2Proof.Machine

open Sys2Proof
/-! `writeReg` -/
@[simp] theorem writeReg_regs (s : State) (i : RegNum) (v : Byte) : (s.writeReg i v).regs = s.regs.set i.val v i.isLt := rfl
@[simp] theorem writeReg_sr (s : State) (i : RegNum) (v : Byte) : (s.writeReg i v).sr = s.sr := rfl
@[simp] theorem writeReg_pcHigh (s : State) (i : RegNum) (v : Byte) : (s.writeReg i v).pcHigh = s.pcHigh := rfl
@[simp] theorem writeReg_pcLow (s : State) (i : RegNum) (v : Byte) : (s.writeReg i v).pcLow = s.pcLow := rfl
@[simp] theorem writeReg_im (s : State) (i : RegNum) (v : Byte) : (s.writeReg i v).im = s.im := rfl
@[simp] theorem writeReg_dm (s : State) (i : RegNum) (v : Byte) : (s.writeReg i v).dm = s.dm := rfl
@[simp] theorem writeReg_l1 (s : State) (i : RegNum) (v : Byte) : (s.writeReg i v).l1 = s.l1 := rfl
@[simp] theorem writeReg_l2 (s : State) (i : RegNum) (v : Byte) : (s.writeReg i v).l2 = s.l2 := rfl
@[simp] theorem writeReg_l3 (s : State) (i : RegNum) (v : Byte) : (s.writeReg i v).l3 = s.l3 := rfl
@[simp] theorem writeReg_l4 (s : State) (i : RegNum) (v : Byte) : (s.writeReg i v).l4 = s.l4 := rfl
@[simp] theorem writeReg_cycle (s : State) (i : RegNum) (v : Byte) : (s.writeReg i v).cycle = s.cycle := rfl
@[simp] theorem writeReg_runStatus (s : State) (i : RegNum) (v : Byte) : (s.writeReg i v).runStatus = s.runStatus := rfl
@[simp] theorem writeReg_v2RegIndex (s : State) (i : RegNum) (v : Byte) : (s.writeReg i v).v2RegIndex = s.v2RegIndex := rfl
@[simp] theorem writeReg_freeCount (s : State) (i : RegNum) (v : Byte) : (s.writeReg i v).freeCount = s.freeCount := rfl

/-! `setFlag` -/
@[simp] theorem setFlag_regs (s : State) (f : Flag) (b : Bool) : (s.setFlag f b).regs = s.regs := rfl
@[simp] theorem setFlag_sr (s : State) (f : Flag) (b : Bool) : (s.setFlag f b).sr = if b then s.sr ||| f.mask else s.sr &&& ~~~f.mask := rfl
@[simp] theorem setFlag_pcHigh (s : State) (f : Flag) (b : Bool) : (s.setFlag f b).pcHigh = s.pcHigh := rfl
@[simp] theorem setFlag_pcLow (s : State) (f : Flag) (b : Bool) : (s.setFlag f b).pcLow = s.pcLow := rfl
@[simp] theorem setFlag_im (s : State) (f : Flag) (b : Bool) : (s.setFlag f b).im = s.im := rfl
@[simp] theorem setFlag_dm (s : State) (f : Flag) (b : Bool) : (s.setFlag f b).dm = s.dm := rfl
@[simp] theorem setFlag_l1 (s : State) (f : Flag) (b : Bool) : (s.setFlag f b).l1 = s.l1 := rfl
@[simp] theorem setFlag_l2 (s : State) (f : Flag) (b : Bool) : (s.setFlag f b).l2 = s.l2 := rfl
@[simp] theorem setFlag_l3 (s : State) (f : Flag) (b : Bool) : (s.setFlag f b).l3 = s.l3 := rfl
@[simp] theorem setFlag_l4 (s : State) (f : Flag) (b : Bool) : (s.setFlag f b).l4 = s.l4 := rfl
@[simp] theorem setFlag_cycle (s : State) (f : Flag) (b : Bool) : (s.setFlag f b).cycle = s.cycle := rfl
@[simp] theorem setFlag_runStatus (s : State) (f : Flag) (b : Bool) : (s.setFlag f b).runStatus = s.runStatus := rfl
@[simp] theorem setFlag_v2RegIndex (s : State) (f : Flag) (b : Bool) : (s.setFlag f b).v2RegIndex = s.v2RegIndex := rfl
@[simp] theorem setFlag_freeCount (s : State) (f : Flag) (b : Bool) : (s.setFlag f b).freeCount = s.freeCount := rfl

/-! `writeIm` -/
@[simp] theorem writeIm_regs (s : State) (a : ImAddr) (w : Word) : (s.writeIm a w).regs = s.regs := rfl
@[simp] theorem writeIm_sr (s : State) (a : ImAddr) (w : Word) : (s.writeIm a w).sr = s.sr := rfl
@[simp] theorem writeIm_pcHigh (s : State) (a : ImAddr) (w : Word) : (s.writeIm a w).pcHigh = s.pcHigh := rfl
@[simp] theorem writeIm_pcLow (s : State) (a : ImAddr) (w : Word) : (s.writeIm a w).pcLow = s.pcLow := rfl
@[simp] theorem writeIm_im (s : State) (a : ImAddr) (w : Word) : (s.writeIm a w).im = Cells.write imUnlisted s.im a.val w := rfl
@[simp] theorem writeIm_dm (s : State) (a : ImAddr) (w : Word) : (s.writeIm a w).dm = s.dm := rfl
@[simp] theorem writeIm_l1 (s : State) (a : ImAddr) (w : Word) : (s.writeIm a w).l1 = s.l1 := rfl
@[simp] theorem writeIm_l2 (s : State) (a : ImAddr) (w : Word) : (s.writeIm a w).l2 = s.l2 := rfl
@[simp] theorem writeIm_l3 (s : State) (a : ImAddr) (w : Word) : (s.writeIm a w).l3 = s.l3 := rfl
@[simp] theorem writeIm_l4 (s : State) (a : ImAddr) (w : Word) : (s.writeIm a w).l4 = s.l4 := rfl
@[simp] theorem writeIm_cycle (s : State) (a : ImAddr) (w : Word) : (s.writeIm a w).cycle = s.cycle := rfl
@[simp] theorem writeIm_runStatus (s : State) (a : ImAddr) (w : Word) : (s.writeIm a w).runStatus = s.runStatus := rfl
@[simp] theorem writeIm_v2RegIndex (s : State) (a : ImAddr) (w : Word) : (s.writeIm a w).v2RegIndex = s.v2RegIndex := rfl
@[simp] theorem writeIm_freeCount (s : State) (a : ImAddr) (w : Word) : (s.writeIm a w).freeCount = s.freeCount := rfl

/-! `memWrite` -/
@[simp] theorem memWrite_regs (s : State) (a : DmAddr) (v : Byte) : (s.memWrite a v).regs = s.regs := rfl
@[simp] theorem memWrite_sr (s : State) (a : DmAddr) (v : Byte) : (s.memWrite a v).sr = s.sr := rfl
@[simp] theorem memWrite_pcHigh (s : State) (a : DmAddr) (v : Byte) : (s.memWrite a v).pcHigh = s.pcHigh := rfl
@[simp] theorem memWrite_pcLow (s : State) (a : DmAddr) (v : Byte) : (s.memWrite a v).pcLow = s.pcLow := rfl
@[simp] theorem memWrite_im (s : State) (a : DmAddr) (v : Byte) : (s.memWrite a v).im = s.im := rfl
@[simp] theorem memWrite_dm (s : State) (a : DmAddr) (v : Byte) : (s.memWrite a v).dm = Cells.write dmUnlisted s.dm a.val v := rfl
@[simp] theorem memWrite_l1 (s : State) (a : DmAddr) (v : Byte) : (s.memWrite a v).l1 = s.l1 := rfl
@[simp] theorem memWrite_l2 (s : State) (a : DmAddr) (v : Byte) : (s.memWrite a v).l2 = s.l2 := rfl
@[simp] theorem memWrite_l3 (s : State) (a : DmAddr) (v : Byte) : (s.memWrite a v).l3 = s.l3 := rfl
@[simp] theorem memWrite_l4 (s : State) (a : DmAddr) (v : Byte) : (s.memWrite a v).l4 = s.l4 := rfl
@[simp] theorem memWrite_cycle (s : State) (a : DmAddr) (v : Byte) : (s.memWrite a v).cycle = s.cycle := rfl
@[simp] theorem memWrite_runStatus (s : State) (a : DmAddr) (v : Byte) : (s.memWrite a v).runStatus = s.runStatus := rfl
@[simp] theorem memWrite_v2RegIndex (s : State) (a : DmAddr) (v : Byte) : (s.memWrite a v).v2RegIndex = s.v2RegIndex := rfl
@[simp] theorem memWrite_freeCount (s : State) (a : DmAddr) (v : Byte) : (s.memWrite a v).freeCount = s.freeCount := rfl

/-! `incrementPc` -/
@[simp] theorem incrementPc_regs (s : State) : (s.incrementPc).regs = s.regs := rfl
@[simp] theorem incrementPc_sr (s : State) : (s.incrementPc).sr = s.sr := rfl
@[simp] theorem incrementPc_pcHigh (s : State) : (s.incrementPc).pcHigh = if s.pcLow = 0xFF then s.pcHigh + 1 else s.pcHigh := rfl
@[simp] theorem incrementPc_pcLow (s : State) : (s.incrementPc).pcLow = s.pcLow + 1 := rfl
@[simp] theorem incrementPc_im (s : State) : (s.incrementPc).im = s.im := rfl
@[simp] theorem incrementPc_dm (s : State) : (s.incrementPc).dm = s.dm := rfl
@[simp] theorem incrementPc_l1 (s : State) : (s.incrementPc).l1 = s.l1 := rfl
@[simp] theorem incrementPc_l2 (s : State) : (s.incrementPc).l2 = s.l2 := rfl
@[simp] theorem incrementPc_l3 (s : State) : (s.incrementPc).l3 = s.l3 := rfl
@[simp] theorem incrementPc_l4 (s : State) : (s.incrementPc).l4 = s.l4 := rfl
@[simp] theorem incrementPc_cycle (s : State) : (s.incrementPc).cycle = s.cycle := rfl
@[simp] theorem incrementPc_runStatus (s : State) : (s.incrementPc).runStatus = s.runStatus := rfl
@[simp] theorem incrementPc_v2RegIndex (s : State) : (s.incrementPc).v2RegIndex = s.v2RegIndex := rfl
@[simp] theorem incrementPc_freeCount (s : State) : (s.incrementPc).freeCount = s.freeCount := rfl

/-! `setPc` -/
@[simp] theorem setPc_regs (s : State) (p : Byte) : (s.setPc p).regs = s.regs := rfl
@[simp] theorem setPc_sr (s : State) (p : Byte) : (s.setPc p).sr = s.sr := rfl
@[simp] theorem setPc_pcHigh (s : State) (p : Byte) : (s.setPc p).pcHigh = Config.freePcHigh s.freeCount := rfl
@[simp] theorem setPc_pcLow (s : State) (p : Byte) : (s.setPc p).pcLow = p := rfl
@[simp] theorem setPc_im (s : State) (p : Byte) : (s.setPc p).im = s.im := rfl
@[simp] theorem setPc_dm (s : State) (p : Byte) : (s.setPc p).dm = s.dm := rfl
@[simp] theorem setPc_l1 (s : State) (p : Byte) : (s.setPc p).l1 = s.l1 := rfl
@[simp] theorem setPc_l2 (s : State) (p : Byte) : (s.setPc p).l2 = s.l2 := rfl
@[simp] theorem setPc_l3 (s : State) (p : Byte) : (s.setPc p).l3 = s.l3 := rfl
@[simp] theorem setPc_l4 (s : State) (p : Byte) : (s.setPc p).l4 = s.l4 := rfl
@[simp] theorem setPc_cycle (s : State) (p : Byte) : (s.setPc p).cycle = s.cycle := rfl
@[simp] theorem setPc_runStatus (s : State) (p : Byte) : (s.setPc p).runStatus = s.runStatus := rfl
@[simp] theorem setPc_v2RegIndex (s : State) (p : Byte) : (s.setPc p).v2RegIndex = s.v2RegIndex := rfl
@[simp] theorem setPc_freeCount (s : State) (p : Byte) : (s.setPc p).freeCount = s.freeCount + 1 := rfl

/-! `vacateL1` -/
@[simp] theorem vacateL1_regs (s : State) : (s.vacateL1).regs = s.regs := rfl
@[simp] theorem vacateL1_sr (s : State) : (s.vacateL1).sr = s.sr := rfl
@[simp] theorem vacateL1_pcHigh (s : State) : (s.vacateL1).pcHigh = s.pcHigh := rfl
@[simp] theorem vacateL1_pcLow (s : State) : (s.vacateL1).pcLow = s.pcLow := rfl
@[simp] theorem vacateL1_im (s : State) : (s.vacateL1).im = s.im := rfl
@[simp] theorem vacateL1_dm (s : State) : (s.vacateL1).dm = s.dm := rfl
@[simp] theorem vacateL1_l1 (s : State) : (s.vacateL1).l1 = vacatedLatch Word s.freeCount := rfl
@[simp] theorem vacateL1_l2 (s : State) : (s.vacateL1).l2 = s.l2 := rfl
@[simp] theorem vacateL1_l3 (s : State) : (s.vacateL1).l3 = s.l3 := rfl
@[simp] theorem vacateL1_l4 (s : State) : (s.vacateL1).l4 = s.l4 := rfl
@[simp] theorem vacateL1_cycle (s : State) : (s.vacateL1).cycle = s.cycle := rfl
@[simp] theorem vacateL1_runStatus (s : State) : (s.vacateL1).runStatus = s.runStatus := rfl
@[simp] theorem vacateL1_v2RegIndex (s : State) : (s.vacateL1).v2RegIndex = s.v2RegIndex := rfl
@[simp] theorem vacateL1_freeCount (s : State) : (s.vacateL1).freeCount = s.freeCount + 1 := rfl

/-! `vacateL2` -/
@[simp] theorem vacateL2_regs (s : State) : (s.vacateL2).regs = s.regs := rfl
@[simp] theorem vacateL2_sr (s : State) : (s.vacateL2).sr = s.sr := rfl
@[simp] theorem vacateL2_pcHigh (s : State) : (s.vacateL2).pcHigh = s.pcHigh := rfl
@[simp] theorem vacateL2_pcLow (s : State) : (s.vacateL2).pcLow = s.pcLow := rfl
@[simp] theorem vacateL2_im (s : State) : (s.vacateL2).im = s.im := rfl
@[simp] theorem vacateL2_dm (s : State) : (s.vacateL2).dm = s.dm := rfl
@[simp] theorem vacateL2_l1 (s : State) : (s.vacateL2).l1 = s.l1 := rfl
@[simp] theorem vacateL2_l2 (s : State) : (s.vacateL2).l2 = vacatedLatch DecodedRecord s.freeCount := rfl
@[simp] theorem vacateL2_l3 (s : State) : (s.vacateL2).l3 = s.l3 := rfl
@[simp] theorem vacateL2_l4 (s : State) : (s.vacateL2).l4 = s.l4 := rfl
@[simp] theorem vacateL2_cycle (s : State) : (s.vacateL2).cycle = s.cycle := rfl
@[simp] theorem vacateL2_runStatus (s : State) : (s.vacateL2).runStatus = s.runStatus := rfl
@[simp] theorem vacateL2_v2RegIndex (s : State) : (s.vacateL2).v2RegIndex = s.v2RegIndex := rfl
@[simp] theorem vacateL2_freeCount (s : State) : (s.vacateL2).freeCount = s.freeCount + 1 := rfl

/-! `vacateL3` -/
@[simp] theorem vacateL3_regs (s : State) : (s.vacateL3).regs = s.regs := rfl
@[simp] theorem vacateL3_sr (s : State) : (s.vacateL3).sr = s.sr := rfl
@[simp] theorem vacateL3_pcHigh (s : State) : (s.vacateL3).pcHigh = s.pcHigh := rfl
@[simp] theorem vacateL3_pcLow (s : State) : (s.vacateL3).pcLow = s.pcLow := rfl
@[simp] theorem vacateL3_im (s : State) : (s.vacateL3).im = s.im := rfl
@[simp] theorem vacateL3_dm (s : State) : (s.vacateL3).dm = s.dm := rfl
@[simp] theorem vacateL3_l1 (s : State) : (s.vacateL3).l1 = s.l1 := rfl
@[simp] theorem vacateL3_l2 (s : State) : (s.vacateL3).l2 = s.l2 := rfl
@[simp] theorem vacateL3_l3 (s : State) : (s.vacateL3).l3 = vacatedLatch DecodedRecord s.freeCount := rfl
@[simp] theorem vacateL3_l4 (s : State) : (s.vacateL3).l4 = s.l4 := rfl
@[simp] theorem vacateL3_cycle (s : State) : (s.vacateL3).cycle = s.cycle := rfl
@[simp] theorem vacateL3_runStatus (s : State) : (s.vacateL3).runStatus = s.runStatus := rfl
@[simp] theorem vacateL3_v2RegIndex (s : State) : (s.vacateL3).v2RegIndex = s.v2RegIndex := rfl
@[simp] theorem vacateL3_freeCount (s : State) : (s.vacateL3).freeCount = s.freeCount + 1 := rfl

/-! `squash` -/
@[simp] theorem squash_regs (s : State) : (s.squash).regs = s.regs := rfl
@[simp] theorem squash_sr (s : State) : (s.squash).sr = s.sr := rfl
@[simp] theorem squash_pcHigh (s : State) : (s.squash).pcHigh = s.pcHigh := rfl
@[simp] theorem squash_pcLow (s : State) : (s.squash).pcLow = s.pcLow := rfl
@[simp] theorem squash_im (s : State) : (s.squash).im = s.im := rfl
@[simp] theorem squash_dm (s : State) : (s.squash).dm = s.dm := rfl
@[simp] theorem squash_l1 (s : State) : (s.squash).l1 = s.l1 := rfl
@[simp] theorem squash_l2 (s : State) : (s.squash).l2 = emptyLatch DecodedRecord := rfl
@[simp] theorem squash_l3 (s : State) : (s.squash).l3 = emptyLatch DecodedRecord := rfl
@[simp] theorem squash_l4 (s : State) : (s.squash).l4 = emptyLatch DecodedRecord := rfl
@[simp] theorem squash_cycle (s : State) : (s.squash).cycle = s.cycle := rfl
@[simp] theorem squash_runStatus (s : State) : (s.squash).runStatus = s.runStatus := rfl
@[simp] theorem squash_v2RegIndex (s : State) : (s.squash).v2RegIndex = s.v2RegIndex := rfl
@[simp] theorem squash_freeCount (s : State) : (s.squash).freeCount = s.freeCount := rfl

/-! `countTick` -/
@[simp] theorem countTick_regs (s : State) : (s.countTick).regs = s.regs := rfl
@[simp] theorem countTick_sr (s : State) : (s.countTick).sr = s.sr := rfl
@[simp] theorem countTick_pcHigh (s : State) : (s.countTick).pcHigh = s.pcHigh := rfl
@[simp] theorem countTick_pcLow (s : State) : (s.countTick).pcLow = s.pcLow := rfl
@[simp] theorem countTick_im (s : State) : (s.countTick).im = s.im := rfl
@[simp] theorem countTick_dm (s : State) : (s.countTick).dm = s.dm := rfl
@[simp] theorem countTick_l1 (s : State) : (s.countTick).l1 = s.l1 := rfl
@[simp] theorem countTick_l2 (s : State) : (s.countTick).l2 = s.l2 := rfl
@[simp] theorem countTick_l3 (s : State) : (s.countTick).l3 = s.l3 := rfl
@[simp] theorem countTick_l4 (s : State) : (s.countTick).l4 = s.l4 := rfl
@[simp] theorem countTick_cycle (s : State) : (s.countTick).cycle = s.cycle + 1 := rfl
@[simp] theorem countTick_runStatus (s : State) : (s.countTick).runStatus = s.runStatus := rfl
@[simp] theorem countTick_v2RegIndex (s : State) : (s.countTick).v2RegIndex = s.v2RegIndex := rfl
@[simp] theorem countTick_freeCount (s : State) : (s.countTick).freeCount = s.freeCount := rfl

/-! `recordFault` -/
@[simp] theorem recordFault_regs (s : State) (r : Fault) : (s.recordFault r).regs = s.regs := rfl
@[simp] theorem recordFault_sr (s : State) (r : Fault) : (s.recordFault r).sr = s.sr := rfl
@[simp] theorem recordFault_pcHigh (s : State) (r : Fault) : (s.recordFault r).pcHigh = s.pcHigh := rfl
@[simp] theorem recordFault_pcLow (s : State) (r : Fault) : (s.recordFault r).pcLow = s.pcLow := rfl
@[simp] theorem recordFault_im (s : State) (r : Fault) : (s.recordFault r).im = s.im := rfl
@[simp] theorem recordFault_dm (s : State) (r : Fault) : (s.recordFault r).dm = s.dm := rfl
@[simp] theorem recordFault_l1 (s : State) (r : Fault) : (s.recordFault r).l1 = s.l1 := rfl
@[simp] theorem recordFault_l2 (s : State) (r : Fault) : (s.recordFault r).l2 = s.l2 := rfl
@[simp] theorem recordFault_l3 (s : State) (r : Fault) : (s.recordFault r).l3 = s.l3 := rfl
@[simp] theorem recordFault_l4 (s : State) (r : Fault) : (s.recordFault r).l4 = s.l4 := rfl
@[simp] theorem recordFault_cycle (s : State) (r : Fault) : (s.recordFault r).cycle = s.cycle := rfl
@[simp] theorem recordFault_runStatus (s : State) (r : Fault) : (s.recordFault r).runStatus = .faulted r := rfl
@[simp] theorem recordFault_v2RegIndex (s : State) (r : Fault) : (s.recordFault r).v2RegIndex = s.v2RegIndex := rfl
@[simp] theorem recordFault_freeCount (s : State) (r : Fault) : (s.recordFault r).freeCount = s.freeCount := rfl

/-! `latchFetched` -/
@[simp] theorem latchFetched_regs (s : State) : (s.latchFetched).regs = s.regs := rfl
@[simp] theorem latchFetched_sr (s : State) : (s.latchFetched).sr = s.sr := rfl
@[simp] theorem latchFetched_pcHigh (s : State) : (s.latchFetched).pcHigh = if s.pcLow = 0xFF then s.pcHigh + 1 else s.pcHigh := rfl
@[simp] theorem latchFetched_pcLow (s : State) : (s.latchFetched).pcLow = s.pcLow + 1 := rfl
@[simp] theorem latchFetched_im (s : State) : (s.latchFetched).im = s.im := rfl
@[simp] theorem latchFetched_dm (s : State) : (s.latchFetched).dm = s.dm := rfl
@[simp] theorem latchFetched_l1 (s : State) : (s.latchFetched).l1 = occupiedLatch s.fetchedWord s.pcView := rfl
@[simp] theorem latchFetched_l2 (s : State) : (s.latchFetched).l2 = s.l2 := rfl
@[simp] theorem latchFetched_l3 (s : State) : (s.latchFetched).l3 = s.l3 := rfl
@[simp] theorem latchFetched_l4 (s : State) : (s.latchFetched).l4 = s.l4 := rfl
@[simp] theorem latchFetched_cycle (s : State) : (s.latchFetched).cycle = s.cycle := rfl
@[simp] theorem latchFetched_runStatus (s : State) : (s.latchFetched).runStatus = s.runStatus := rfl
@[simp] theorem latchFetched_v2RegIndex (s : State) : (s.latchFetched).v2RegIndex = s.v2RegIndex := rfl
@[simp] theorem latchFetched_freeCount (s : State) : (s.latchFetched).freeCount = s.freeCount := rfl

/-! `vacateL4` changes L4 and the free-value counter only. -/

@[simp] theorem vacateL4_regs (s : State) : s.vacateL4.regs = s.regs := by unfold State.vacateL4; split <;> rfl
@[simp] theorem vacateL4_sr (s : State) : s.vacateL4.sr = s.sr := by unfold State.vacateL4; split <;> rfl
@[simp] theorem vacateL4_pcHigh (s : State) : s.vacateL4.pcHigh = s.pcHigh := by unfold State.vacateL4; split <;> rfl
@[simp] theorem vacateL4_pcLow (s : State) : s.vacateL4.pcLow = s.pcLow := by unfold State.vacateL4; split <;> rfl
@[simp] theorem vacateL4_im (s : State) : s.vacateL4.im = s.im := by unfold State.vacateL4; split <;> rfl
@[simp] theorem vacateL4_dm (s : State) : s.vacateL4.dm = s.dm := by unfold State.vacateL4; split <;> rfl
@[simp] theorem vacateL4_l1 (s : State) : s.vacateL4.l1 = s.l1 := by unfold State.vacateL4; split <;> rfl
@[simp] theorem vacateL4_l2 (s : State) : s.vacateL4.l2 = s.l2 := by unfold State.vacateL4; split <;> rfl
@[simp] theorem vacateL4_l3 (s : State) : s.vacateL4.l3 = s.l3 := by unfold State.vacateL4; split <;> rfl
@[simp] theorem vacateL4_cycle (s : State) : s.vacateL4.cycle = s.cycle := by unfold State.vacateL4; split <;> rfl
@[simp] theorem vacateL4_runStatus (s : State) : s.vacateL4.runStatus = s.runStatus := by unfold State.vacateL4; split <;> rfl
@[simp] theorem vacateL4_v2RegIndex (s : State) : s.vacateL4.v2RegIndex = s.v2RegIndex := by unfold State.vacateL4; split <;> rfl

/-- After `vacateL4` L4 is Empty. -/
@[simp] theorem vacateL4_payload (s : State) : s.vacateL4.l4.payload = none := by
  unfold State.vacateL4; split
  · assumption
  · rfl

/-! Latches. -/

@[simp] theorem occupiedLatch_payload {α : Type} (p : α) (t : Byte) : (occupiedLatch p t).payload = some p := rfl

@[simp] theorem occupiedLatch_pcTag {α : Type} (p : α) (t : Byte) : (occupiedLatch p t).pcTag = t := rfl

@[simp] theorem emptyLatch_payload (α : Type) : (emptyLatch α).payload = none := rfl

@[simp] theorem emptyLatch_pcTag (α : Type) : (emptyLatch α).pcTag = 0 := rfl

@[simp] theorem vacatedLatch_payload (α : Type) (n : Nat) : (vacatedLatch α n).payload = none := rfl

end Sys2Proof.Machine
end

