-- ==== Sys2Proof/Laws/Memory.lean ====
section
/-! SUPPORT. The laws of the memories: a read after a write, and every write keeps the canonical form. -/

namespace Sys2Proof.Machine

open Sys2Proof

variable {w : Nat} {u : BitVec w}

theorem Cells.read_erase (m : Cells w) (a b : Nat) :
    Cells.read u (m.erase a) b = if a = b then u else Cells.read u m b := by
  induction m with
  | nil => simp [Cells.erase, Cells.read]
  | cons c m ih =>
    obtain ⟨k, x⟩ := c
    by_cases hk : k = a
    · subst hk
      by_cases hb : k = b <;> simp_all [Cells.erase, Cells.read]
    · by_cases hb : a = b
      · subst hb; simp_all [Cells.erase, Cells.read]
      · simp_all [Cells.erase, Cells.read]

theorem Cells.read_insert (m : Cells w) (a b : Nat) (x : BitVec w) (h : Cells.read u m a = u) (hx : ∀ y, (a, y) ∉ m) :
    Cells.read u (m.insert a x) b = if a = b then x else Cells.read u m b := by
  induction m with
  | nil => simp [Cells.insert, Cells.read]
  | cons c m ih =>
    obtain ⟨k, y⟩ := c
    have hka : k ≠ a := fun e => hx y (by simp [e])
    have hm : ∀ z, (a, z) ∉ m := fun z hz => hx z (List.mem_cons_of_mem _ hz)
    have hr : Cells.read u m a = u := by simpa [Cells.read, hka] using h
    unfold Cells.insert
    split
    · simp [Cells.read]
    · by_cases hb : k = b
      · subst hb; simp [Cells.read, Ne.symm hka]
      · simp [Cells.read, hb, ih hr hm]

theorem Cells.not_mem_erase (m : Cells w) (a : Nat) (y : BitVec w) : (a, y) ∉ m.erase a := by
  induction m with
  | nil => simp [Cells.erase]
  | cons c m ih =>
    obtain ⟨k, x⟩ := c
    by_cases hk : k = a
    · simp [Cells.erase, hk, ih]
    · simp [Cells.erase, hk, ih, Ne.symm hk]

/-- A read after a write: the value written at that address, what was there before at any other. -/
theorem Cells.read_write (m : Cells w) (a b : Nat) (x : BitVec w) :
    Cells.read u (Cells.write u m a x) b = if a = b then x else Cells.read u m b := by
  unfold Cells.write
  split
  · next h => rw [Cells.read_erase, h]
  · rw [Cells.read_insert _ _ _ _ (by simp [Cells.read_erase]) (Cells.not_mem_erase m a), Cells.read_erase]
    split <;> rfl

theorem Cells.wfFrom_mono {size lo lo' : Nat} {m : Cells w} (h : Cells.wfFrom u size lo m = true) (hl : lo' ≤ lo) :
    Cells.wfFrom u size lo' m = true := by
  cases m with
  | nil => rfl
  | cons c m =>
    obtain ⟨k, x⟩ := c
    simp only [Cells.wfFrom, Bool.and_eq_true, decide_eq_true_eq] at h ⊢
    exact ⟨⟨⟨le_trans hl h.1.1.1, h.1.1.2⟩, h.1.2⟩, h.2⟩

theorem Cells.wfFrom_erase {size : Nat} (a : Nat) {m : Cells w} : ∀ {lo : Nat}, Cells.wfFrom u size lo m = true →
    Cells.wfFrom u size lo (m.erase a) = true := by
  induction m with
  | nil => intro lo h; exact h
  | cons c m ih =>
    obtain ⟨k, x⟩ := c
    intro lo h
    simp only [Cells.wfFrom, Bool.and_eq_true, decide_eq_true_eq] at h
    unfold Cells.erase
    split
    · exact Cells.wfFrom_mono (ih h.2) (by omega)
    · simp only [Cells.wfFrom, Bool.and_eq_true, decide_eq_true_eq]
      exact ⟨h.1, ih h.2⟩

theorem Cells.wfFrom_insert {size a : Nat} {x : BitVec w} (ha : a < size) (hx : x ≠ u) {m : Cells w} :
    ∀ {lo : Nat}, lo ≤ a → (∀ y, (a, y) ∉ m) → Cells.wfFrom u size lo m = true →
      Cells.wfFrom u size lo (m.insert a x) = true := by
  induction m with
  | nil => intro lo hl _ _; simp [Cells.insert, Cells.wfFrom, hl, ha, hx]
  | cons c m ih =>
    obtain ⟨k, y⟩ := c
    intro lo hl hn h
    have hka : k ≠ a := fun e => hn y (by simp [e])
    simp only [Cells.wfFrom, Bool.and_eq_true, decide_eq_true_eq] at h
    unfold Cells.insert
    split
    · simp only [Cells.wfFrom, Bool.and_eq_true, decide_eq_true_eq]
      exact ⟨⟨⟨hl, ha⟩, by simpa using hx⟩, ⟨⟨by omega, h.1.1.2⟩, h.1.2⟩, h.2⟩
    · simp only [Cells.wfFrom, Bool.and_eq_true, decide_eq_true_eq]
      exact ⟨h.1, ih (by omega) (fun z hz => hn z (List.mem_cons_of_mem _ hz)) h.2⟩

/-- A write inside the memory keeps the canonical form. -/
theorem Cells.wfFrom_write {size a : Nat} (ha : a < size) (x : BitVec w) {m : Cells w} (h : Cells.wfFrom u size 0 m = true) :
    Cells.wfFrom u size 0 (Cells.write u m a x) = true := by
  unfold Cells.write
  split
  · exact Cells.wfFrom_erase a h
  · next hx => exact Cells.wfFrom_insert ha hx (Nat.zero_le a) (Cells.not_mem_erase m a) (Cells.wfFrom_erase a h)

/-- `MemRead` after `MemWrite`. -/
@[simp] theorem memRead_memWrite (s : State) (a b : DmAddr) (v : Byte) :
    (s.memWrite a v).memRead b = if a = b then v else s.memRead b := by
  simp [State.memRead, State.memWrite, Cells.read_write, Fin.val_inj]

/-- `IFetch` after `WriteInstructionMemory`. -/
@[simp] theorem ifetch_writeIm (s : State) (a b : ImAddr) (v : Word) :
    (s.writeIm a v).ifetch b = if a = b then v else s.ifetch b := by
  simp [State.ifetch, State.writeIm, Cells.read_write, Fin.val_inj]

/-- `MemWrite` keeps both memories in canonical form. -/
theorem memWrite_wf {s : State} (h : Memory.wf s = true) (a : DmAddr) (v : Byte) : Memory.wf (s.memWrite a v) = true := by
  simp only [Memory.wf, Bool.and_eq_true] at h ⊢
  exact ⟨h.1, Cells.wfFrom_write a.isLt v h.2⟩

/-- `WriteInstructionMemory` keeps both memories in canonical form. -/
theorem writeIm_wf {s : State} (h : Memory.wf s = true) (a : ImAddr) (v : Word) : Memory.wf (s.writeIm a v) = true := by
  simp only [Memory.wf, Bool.and_eq_true] at h ⊢
  exact ⟨Cells.wfFrom_write a.isLt v h.1, h.2⟩

/-- The memories of reset are in canonical form. -/
theorem reset_wf : Memory.wf State.reset = true := by decide

/-- The canonical form depends on the two lists of cells only. -/
theorem wf_congr {s t : State} (hi : t.im = s.im) (hd : t.dm = s.dm) : Memory.wf t = Memory.wf s := by
  simp [Memory.wf, hi, hd]

end Sys2Proof.Machine
end

