-- ==== Sys2Proof/Laws/Ops.lean ====
section
/-! SUPPORT. What each reader of the state gives after each update, and one lemma for each shared operation that says
everything it can do. -/

namespace Sys2Proof.Machine

open Sys2Proof

/-! ### Readers after updates that do not touch what they read -/

@[simp] theorem readReg_setFlag (s : State) (f : Flag) (b : Bool) (j : RegNum) : (s.setFlag f b).readReg j = s.readReg j := rfl
@[simp] theorem readReg_writeIm (s : State) (a : ImAddr) (w : Word) (j : RegNum) : (s.writeIm a w).readReg j = s.readReg j := rfl
@[simp] theorem readReg_memWrite (s : State) (a : DmAddr) (v : Byte) (j : RegNum) : (s.memWrite a v).readReg j = s.readReg j := rfl
@[simp] theorem readReg_incrementPc (s : State) (j : RegNum) : (s.incrementPc).readReg j = s.readReg j := rfl
@[simp] theorem readReg_setPc (s : State) (p : Byte) (j : RegNum) : (s.setPc p).readReg j = s.readReg j := rfl
@[simp] theorem readReg_vacateL1 (s : State) (j : RegNum) : (s.vacateL1).readReg j = s.readReg j := rfl
@[simp] theorem readReg_vacateL2 (s : State) (j : RegNum) : (s.vacateL2).readReg j = s.readReg j := rfl
@[simp] theorem readReg_vacateL3 (s : State) (j : RegNum) : (s.vacateL3).readReg j = s.readReg j := rfl
@[simp] theorem readReg_squash (s : State) (j : RegNum) : (s.squash).readReg j = s.readReg j := rfl
@[simp] theorem readReg_countTick (s : State) (j : RegNum) : (s.countTick).readReg j = s.readReg j := rfl
@[simp] theorem readReg_recordFault (s : State) (r : Fault) (j : RegNum) : (s.recordFault r).readReg j = s.readReg j := rfl
@[simp] theorem readReg_latchFetched (s : State) (j : RegNum) : (s.latchFetched).readReg j = s.readReg j := rfl
@[simp] theorem readReg_vacateL4 (s : State) (j : RegNum) : s.vacateL4.readReg j = s.readReg j := by unfold State.vacateL4; split <;> rfl

@[simp] theorem flag_writeReg (s : State) (i : RegNum) (v : Byte) (g : Flag) : (s.writeReg i v).flag g = s.flag g := rfl
@[simp] theorem flag_writeIm (s : State) (a : ImAddr) (w : Word) (g : Flag) : (s.writeIm a w).flag g = s.flag g := rfl
@[simp] theorem flag_memWrite (s : State) (a : DmAddr) (v : Byte) (g : Flag) : (s.memWrite a v).flag g = s.flag g := rfl
@[simp] theorem flag_incrementPc (s : State) (g : Flag) : (s.incrementPc).flag g = s.flag g := rfl
@[simp] theorem flag_setPc (s : State) (p : Byte) (g : Flag) : (s.setPc p).flag g = s.flag g := rfl
@[simp] theorem flag_vacateL1 (s : State) (g : Flag) : (s.vacateL1).flag g = s.flag g := rfl
@[simp] theorem flag_vacateL2 (s : State) (g : Flag) : (s.vacateL2).flag g = s.flag g := rfl
@[simp] theorem flag_vacateL3 (s : State) (g : Flag) : (s.vacateL3).flag g = s.flag g := rfl
@[simp] theorem flag_squash (s : State) (g : Flag) : (s.squash).flag g = s.flag g := rfl
@[simp] theorem flag_countTick (s : State) (g : Flag) : (s.countTick).flag g = s.flag g := rfl
@[simp] theorem flag_recordFault (s : State) (r : Fault) (g : Flag) : (s.recordFault r).flag g = s.flag g := rfl
@[simp] theorem flag_latchFetched (s : State) (g : Flag) : (s.latchFetched).flag g = s.flag g := rfl
@[simp] theorem flag_vacateL4 (s : State) (g : Flag) : s.vacateL4.flag g = s.flag g := by unfold State.vacateL4; split <;> rfl

@[simp] theorem memRead_writeReg (s : State) (i : RegNum) (v : Byte) (c : DmAddr) : (s.writeReg i v).memRead c = s.memRead c := rfl
@[simp] theorem memRead_setFlag (s : State) (f : Flag) (b : Bool) (c : DmAddr) : (s.setFlag f b).memRead c = s.memRead c := rfl
@[simp] theorem memRead_writeIm (s : State) (a : ImAddr) (w : Word) (c : DmAddr) : (s.writeIm a w).memRead c = s.memRead c := rfl
@[simp] theorem memRead_incrementPc (s : State) (c : DmAddr) : (s.incrementPc).memRead c = s.memRead c := rfl
@[simp] theorem memRead_setPc (s : State) (p : Byte) (c : DmAddr) : (s.setPc p).memRead c = s.memRead c := rfl
@[simp] theorem memRead_vacateL1 (s : State) (c : DmAddr) : (s.vacateL1).memRead c = s.memRead c := rfl
@[simp] theorem memRead_vacateL2 (s : State) (c : DmAddr) : (s.vacateL2).memRead c = s.memRead c := rfl
@[simp] theorem memRead_vacateL3 (s : State) (c : DmAddr) : (s.vacateL3).memRead c = s.memRead c := rfl
@[simp] theorem memRead_squash (s : State) (c : DmAddr) : (s.squash).memRead c = s.memRead c := rfl
@[simp] theorem memRead_countTick (s : State) (c : DmAddr) : (s.countTick).memRead c = s.memRead c := rfl
@[simp] theorem memRead_recordFault (s : State) (r : Fault) (c : DmAddr) : (s.recordFault r).memRead c = s.memRead c := rfl
@[simp] theorem memRead_latchFetched (s : State) (c : DmAddr) : (s.latchFetched).memRead c = s.memRead c := rfl
@[simp] theorem memRead_vacateL4 (s : State) (c : DmAddr) : s.vacateL4.memRead c = s.memRead c := by unfold State.vacateL4; split <;> rfl

@[simp] theorem ifetch_writeReg (s : State) (i : RegNum) (v : Byte) (c : ImAddr) : (s.writeReg i v).ifetch c = s.ifetch c := rfl
@[simp] theorem ifetch_setFlag (s : State) (f : Flag) (b : Bool) (c : ImAddr) : (s.setFlag f b).ifetch c = s.ifetch c := rfl
@[simp] theorem ifetch_memWrite (s : State) (a : DmAddr) (v : Byte) (c : ImAddr) : (s.memWrite a v).ifetch c = s.ifetch c := rfl
@[simp] theorem ifetch_incrementPc (s : State) (c : ImAddr) : (s.incrementPc).ifetch c = s.ifetch c := rfl
@[simp] theorem ifetch_setPc (s : State) (p : Byte) (c : ImAddr) : (s.setPc p).ifetch c = s.ifetch c := rfl
@[simp] theorem ifetch_vacateL1 (s : State) (c : ImAddr) : (s.vacateL1).ifetch c = s.ifetch c := rfl
@[simp] theorem ifetch_vacateL2 (s : State) (c : ImAddr) : (s.vacateL2).ifetch c = s.ifetch c := rfl
@[simp] theorem ifetch_vacateL3 (s : State) (c : ImAddr) : (s.vacateL3).ifetch c = s.ifetch c := rfl
@[simp] theorem ifetch_squash (s : State) (c : ImAddr) : (s.squash).ifetch c = s.ifetch c := rfl
@[simp] theorem ifetch_countTick (s : State) (c : ImAddr) : (s.countTick).ifetch c = s.ifetch c := rfl
@[simp] theorem ifetch_recordFault (s : State) (r : Fault) (c : ImAddr) : (s.recordFault r).ifetch c = s.ifetch c := rfl
@[simp] theorem ifetch_latchFetched (s : State) (c : ImAddr) : (s.latchFetched).ifetch c = s.ifetch c := rfl
@[simp] theorem ifetch_vacateL4 (s : State) (c : ImAddr) : s.vacateL4.ifetch c = s.ifetch c := by unfold State.vacateL4; split <;> rfl

@[simp] theorem pcView_writeReg (s : State) (i : RegNum) (v : Byte) : (s.writeReg i v).pcView = s.pcView := rfl
@[simp] theorem pcView_setFlag (s : State) (f : Flag) (b : Bool) : (s.setFlag f b).pcView = s.pcView := rfl
@[simp] theorem pcView_writeIm (s : State) (a : ImAddr) (w : Word) : (s.writeIm a w).pcView = s.pcView := rfl
@[simp] theorem pcView_memWrite (s : State) (a : DmAddr) (v : Byte) : (s.memWrite a v).pcView = s.pcView := rfl
@[simp] theorem pcView_vacateL1 (s : State) : (s.vacateL1).pcView = s.pcView := rfl
@[simp] theorem pcView_vacateL2 (s : State) : (s.vacateL2).pcView = s.pcView := rfl
@[simp] theorem pcView_vacateL3 (s : State) : (s.vacateL3).pcView = s.pcView := rfl
@[simp] theorem pcView_squash (s : State) : (s.squash).pcView = s.pcView := rfl
@[simp] theorem pcView_countTick (s : State) : (s.countTick).pcView = s.pcView := rfl
@[simp] theorem pcView_recordFault (s : State) (r : Fault) : (s.recordFault r).pcView = s.pcView := rfl
@[simp] theorem pcView_vacateL4 (s : State) : s.vacateL4.pcView = s.pcView := by unfold State.vacateL4; split <;> rfl

/-! ### Registers, flags, PC -/

/-- `read` after `write` (R21, R22). -/
@[simp] theorem readReg_writeReg (s : State) (i j : RegNum) (v : Byte) :
    (s.writeReg i v).readReg j = if i = j then v else s.readReg j := by
  simp [State.readReg, State.writeReg, Vector.getElem_set, Fin.val_inj]

/-- A flag after a flag write (R50). -/
@[simp] theorem flag_setFlag (s : State) (f g : Flag) (b : Bool) :
    (s.setFlag f b).flag g = if f = g then b else s.flag g := by
  cases f <;> cases g <;> cases b <;> simp [State.flag, State.setFlag, Flag.mask, Flag.bit]

/-- A flag write leaves status bits 5 to 7 (R51). -/
theorem setFlag_high (s : State) (f : Flag) (b : Bool) {k : Nat} (hk : 5 ≤ k) :
    (s.setFlag f b).sr.getLsbD k = s.sr.getLsbD k := by
  by_cases h8 : k < 8
  · obtain rfl | rfl | rfl : k = 5 ∨ k = 6 ∨ k = 7 := by omega
    all_goals cases f <;> cases b <;> simp [State.setFlag, Flag.mask, Flag.bit]
  · rw [BitVec.getLsbD_of_ge _ _ (by omega), BitVec.getLsbD_of_ge _ _ (by omega)]

@[simp] theorem pcView_setPc (s : State) (p : Byte) : (s.setPc p).pcView = p := rfl

@[simp] theorem pcView_incrementPc (s : State) : s.incrementPc.pcView = s.pcView + 1 := rfl

@[simp] theorem pcView_latchFetched (s : State) : s.latchFetched.pcView = s.pcView + 1 := rfl

/-! ### Arithmetic -/

/-- `wrap8` is the function of R11. -/
theorem wrap8_toInt (n : Int) : (wrap8 n).toInt = (n + 128) % 256 - 128 := by
  unfold wrap8; rw [BitVec.toInt_ofInt, Int.bmod_def]; norm_num; split <;> omega

/-! ### The roles of value2 -/

/-- `regIndex2` answers an index (R92). -/
theorem regIndex2_ok {mode : V2RegIndex} {v : Value2} {i : RegNum} (h : regIndex2 mode v = .ok i) :
    (0 ≤ value2Int v ∧ (i.val : Int) = value2Int v) ∨
      (value2Int v < 0 ∧ mode = .masked ∧ (i.val : Int) = value2Int v + 64) := by
  have := le_value2Int v
  unfold regIndex2 at h
  split at h
  · next hv => cases h; exact .inl ⟨hv, by simp [hv]⟩
  · cases mode with
    | masked => cases h; exact .inr ⟨by omega, rfl, by simp; omega⟩
    | fault => cases h

/-- `regIndex2` raises a model fault exactly on a negative value2 with the parameter `fault` (R92). -/
theorem regIndex2_error {mode : V2RegIndex} {v : Value2} {e : Fault} (h : regIndex2 mode v = .error e) :
    value2Int v < 0 ∧ mode = .fault ∧ e = .v2RegIndexNegative := by
  unfold regIndex2 at h
  split at h
  · cases h
  · cases mode with
    | masked => cases h
    | fault => cases h; exact ⟨by omega, rfl, rfl⟩

/-- `shiftCount` answers a count (R144). -/
theorem shiftCount_ok {v : Value2} {n : Nat} (h : shiftCount v = .ok n) : (n : Int) = value2Int v := by
  unfold shiftCount at h
  split at h
  · next hv => cases h; simp [hv]
  · cases h

/-- `shiftCount` raises a model fault exactly on a negative value2 (R144). -/
theorem shiftCount_error {v : Value2} {e : Fault} (h : shiftCount v = .error e) :
    value2Int v < 0 ∧ e = .shiftCountNegative := by
  unfold shiftCount at h
  split at h
  · cases h
  · cases h; exact ⟨by omega, rfl⟩

/-- `dataAddress` answers an address, below 32 (R153, R66). -/
theorem dataAddress_ok {v : Value2} {a : DmAddr} (h : dataAddress v = .ok a) :
    (a.val : Int) = value2Int v ∧ a.val < 32 := by
  have := value2Int_lt v
  unfold dataAddress at h
  split at h
  · next hv => cases h; exact ⟨by simp [hv], by simp; omega⟩
  · cases h

/-- `dataAddress` raises a model fault exactly on a negative value2 (R153). -/
theorem dataAddress_error {v : Value2} {e : Fault} (h : dataAddress v = .error e) :
    value2Int v < 0 ∧ e = .dataAddressNegative := by
  unfold dataAddress at h
  split at h
  · cases h
  · cases h; exact ⟨by omega, rfl⟩

/-! ### The shared shapes of the instructions -/

/-- What ADD, SUB, MUL and EOR answer when they answer a next state. -/
theorem registerOp_next {result : Byte → Byte → Byte} {flags : Byte → Byte → Byte → State → State} {d : RegNum} {v : Value2}
    {s t : State} (h : registerOp result flags d v s = .next t) :
    ∃ i, regIndex2 s.v2RegIndex v = .ok i ∧
      t = (flags (s.readReg d) (s.readReg i) (result (s.readReg d) (s.readReg i)) s).writeReg d
        (result (s.readReg d) (s.readReg i)) := by
  unfold registerOp at h
  cases hi : regIndex2 s.v2RegIndex v with
  | error e => rw [hi] at h; cases h
  | ok i => rw [hi] at h; cases h; exact ⟨i, rfl, rfl⟩

/-- What SAL and SAR answer when they answer a next state. -/
theorem shiftOp_next {result : Byte → Nat → Byte} {d : RegNum} {v : Value2} {s t : State}
    (h : shiftOp result d v s = .next t) :
    ∃ n, shiftCount v = .ok n ∧ t = writeResultNz d (result (s.readReg d) n) s := by
  unfold shiftOp at h
  cases hn : shiftCount v with
  | error e => rw [hn] at h; cases h
  | ok n => rw [hn] at h; cases h; exact ⟨n, rfl, rfl⟩

/-- What LDR answers when it answers a next state. -/
theorem execLdr_next {d : RegNum} {v : Value2} {s t : State} (h : execLdr d v s = .next t) :
    ∃ ea, dataAddress v = .ok ea ∧ t = s.writeReg d (s.memRead ea) := by
  unfold execLdr at h
  cases ha : dataAddress v with
  | error e => rw [ha] at h; cases h
  | ok ea => rw [ha] at h; cases h; exact ⟨ea, rfl, rfl⟩

/-- What STR answers when it answers a next state. -/
theorem execStr_next {d : RegNum} {v : Value2} {s t : State} (h : execStr d v s = .next t) :
    ∃ ea, dataAddress v = .ok ea ∧ t = s.memWrite ea (s.readReg d) := by
  unfold execStr at h
  cases ha : dataAddress v with
  | error e => rw [ha] at h; cases h
  | ok ea => rw [ha] at h; cases h; exact ⟨ea, rfl, rfl⟩

/-- What BR answers when it answers a next state. -/
theorem execBr_next {d : RegNum} {v : Value2} {s t : State} (h : execBr d v s = .next t) :
    ∃ i, regIndex2 s.v2RegIndex v = .ok i ∧ t = takeBranch (s.readReg i) s := by
  unfold execBr at h
  cases hi : regIndex2 s.v2RegIndex v with
  | error e => rw [hi] at h; cases h
  | ok i => rw [hi] at h; cases h; exact ⟨i, rfl, rfl⟩

/-- What BEQZ answers. -/
theorem execBeqz_next {d : RegNum} {v : Value2} {s t : State} (h : execBeqz d v s = .next t) :
    (s.readReg d = 0 ∧ t = takeBranch (branchTarget s.pcView v) s) ∨ (s.readReg d ≠ 0 ∧ t = s) := by
  unfold execBeqz at h
  split at h
  · next hd => cases h; exact .inl ⟨hd, rfl⟩
  · next hd => cases h; exact .inr ⟨hd, rfl⟩

/-! ### The flag groups change the status register only, and of it only the five flags -/

/-- A flag write changes the status register only. -/
theorem setFlag_eq (s : State) (f : Flag) (b : Bool) : s.setFlag f b = { s with sr := (s.setFlag f b).sr } := rfl

/-- Changes of the status register only, one after the other, are one. -/
theorem srOnly_trans {s t u : State} (h : t = { s with sr := t.sr }) (h' : u = { t with sr := u.sr }) :
    u = { s with sr := u.sr } := by
  rw [h'] ; rw [h]

theorem addFlags_eq (a b r : Byte) (s : State) : addFlags a b r s = { s with sr := (addFlags a b r s).sr } :=
  srOnly_trans (srOnly_trans (srOnly_trans (srOnly_trans (setFlag_eq s _ _) (setFlag_eq _ _ _)) (setFlag_eq _ _ _))
    (setFlag_eq _ _ _)) (setFlag_eq _ _ _)

theorem subFlags_eq (a b r : Byte) (s : State) : subFlags a b r s = { s with sr := (subFlags a b r s).sr } :=
  srOnly_trans (srOnly_trans (srOnly_trans (setFlag_eq s _ _) (setFlag_eq _ _ _)) (setFlag_eq _ _ _)) (setFlag_eq _ _ _)

theorem nzFlags_eq (r : Byte) (s : State) : nzFlags r s = { s with sr := (nzFlags r s).sr } :=
  srOnly_trans (setFlag_eq s _ _) (setFlag_eq _ _ _)

theorem addFlags_high (a b r : Byte) (s : State) {k : Nat} (hk : 5 ≤ k) :
    (addFlags a b r s).sr.getLsbD k = s.sr.getLsbD k := by
  simp only [addFlags, updateZero, updateSign, updateNegative, updateOverflowAdd, updateCarry, setFlag_high _ _ _ hk]

theorem subFlags_high (a b r : Byte) (s : State) {k : Nat} (hk : 5 ≤ k) :
    (subFlags a b r s).sr.getLsbD k = s.sr.getLsbD k := by
  simp only [subFlags, updateZero, updateSign, updateNegative, updateOverflowSub, setFlag_high _ _ _ hk]

theorem nzFlags_high (r : Byte) (s : State) {k : Nat} (hk : 5 ≤ k) : (nzFlags r s).sr.getLsbD k = s.sr.getLsbD k := by
  simp only [nzFlags, updateZero, updateNegative, setFlag_high _ _ _ hk]

/-! ### The tick -/

/-- Sequencing answers a next state only through next states. -/
theorem andThen_next {o : Result} {f : State → Result} {t : State} (h : andThen o f = .next t) :
    ∃ s, o = .next s ∧ f s = .next t := by
  cases o with
  | next s => exact ⟨s, rfl, h⟩
  | fault r => cases h
  | refused q => cases h

/-- The fetch-step always answers a next state: one of two (R102, R103). -/
theorem fetchStep_eq (s : State) :
    fetchStep s = .next (if s.fetchedWord = sentinelWord then s.vacateL1 else s.latchFetched) := by
  unfold fetchStep; split <;> rfl

/-- What the execute-step answers when it answers a next state: nothing dispatched, a dispatch done, or a model fault. -/
theorem executeStep_next {s t : State} (h : executeStep s = .next t) :
    (s.l4.payload = none ∧ t = s.advanceL3) ∨
      (∃ r u, s.l4.payload = some r ∧ exec r.instr s = .next u ∧ t = u.vacateL4.advanceL3) ∨
      (∃ r reason, s.l4.payload = some r ∧ exec r.instr s = .fault reason ∧ t = s.recordFault reason) := by
  unfold executeStep at h
  cases hr : s.l4.payload with
  | none => rw [hr] at h; cases h; exact .inl ⟨rfl, rfl⟩
  | some r =>
    rw [hr] at h
    simp only [dispatch] at h
    cases hx : exec r.instr s with
    | next u => rw [hx] at h; cases h; exact .inr (.inl ⟨r, u, rfl, hx, rfl⟩)
    | fault reason => rw [hx] at h; cases h; exact .inr (.inr ⟨r, reason, rfl, hx, rfl⟩)
    | refused q => rw [hx] at h; cases h

/-- What a tick answers when it answers a next state. -/
theorem tick_next {s t : State} (h : tick s = .next t) :
    ∃ u, executeStep (decodeStep (if s.fetchedWord = sentinelWord then s.countTick.vacateL1
      else s.countTick.latchFetched)) = .next u ∧ t = checkTermination u := by
  unfold tick at h
  rw [fetchStep_eq] at h
  obtain ⟨u, hu, ht⟩ := andThen_next h
  obtain ⟨s2, hs2, ht2⟩ := andThen_next ht
  cases hu; cases ht2
  exact ⟨s2, hs2, rfl⟩

/-- What a step answers when it answers a next state: a tick of a Running block, or a Terminated block as it is. -/
theorem step_next {s t : State} (h : step s = .next t) :
    (s.runStatus = .running ∧ tick s = .next t) ∨ (s.runStatus = .terminated ∧ t = s) := by
  unfold step stepState at h
  cases hs : s.runStatus with
  | running => rw [hs] at h; exact .inl ⟨rfl, h⟩
  | terminated => rw [hs] at h; cases h; exact .inr ⟨rfl, rfl⟩
  | faulted r => rw [hs] at h; cases h

end Sys2Proof.Machine
end

