-- ==== Sys2Proof/Laws/PerInstr.lean ====
section
/-! SUPPORT. Families of statements about the instructions as syntax, one lemma per constructor. -/

namespace Sys2Proof.Laws

open Sys2Proof

/-- The opcode of an instruction: its row of the opcode map (R88); the sentinel's bit pattern spells 15 (R90). -/
def opcodeNumber : Instr → Opcode
  | .add _ _ => 0
  | .sub _ _ => 1
  | .mul _ _ => 2
  | .movi _ _ => 3
  | .beqz _ _ => 4
  | .andi _ _ => 5
  | .eor _ _ => 6
  | .br _ _ => 7
  | .sal _ _ => 8
  | .sar _ _ => 9
  | .ldr _ _ => 10
  | .str _ _ => 11
  | .reserved12 _ _ => 12
  | .reserved13 _ _ => 13
  | .reserved14 _ _ => 14
  | .reserved15 _ _ => 15
  | .sentinel => 15

/-- The top four bits of an instruction's word are its opcode (R81, R88). -/
def OpcodeNibble.Statement (i : Instr) : Prop := opcodeField (encode i) = opcodeNumber i

theorem OpcodeNibble.add (d : RegNum) (v : Value2) : OpcodeNibble.Statement (.add d v) :=
  opcodeField_packWord _ d v

theorem OpcodeNibble.sub (d : RegNum) (v : Value2) : OpcodeNibble.Statement (.sub d v) :=
  opcodeField_packWord _ d v

theorem OpcodeNibble.mul (d : RegNum) (v : Value2) : OpcodeNibble.Statement (.mul d v) :=
  opcodeField_packWord _ d v

theorem OpcodeNibble.movi (d : RegNum) (v : Value2) : OpcodeNibble.Statement (.movi d v) :=
  opcodeField_packWord _ d v

theorem OpcodeNibble.beqz (d : RegNum) (v : Value2) : OpcodeNibble.Statement (.beqz d v) :=
  opcodeField_packWord _ d v

theorem OpcodeNibble.andi (d : RegNum) (v : Value2) : OpcodeNibble.Statement (.andi d v) :=
  opcodeField_packWord _ d v

theorem OpcodeNibble.eor (d : RegNum) (v : Value2) : OpcodeNibble.Statement (.eor d v) :=
  opcodeField_packWord _ d v

theorem OpcodeNibble.br (d : RegNum) (v : Value2) : OpcodeNibble.Statement (.br d v) :=
  opcodeField_packWord _ d v

theorem OpcodeNibble.sal (d : RegNum) (v : Value2) : OpcodeNibble.Statement (.sal d v) :=
  opcodeField_packWord _ d v

theorem OpcodeNibble.sar (d : RegNum) (v : Value2) : OpcodeNibble.Statement (.sar d v) :=
  opcodeField_packWord _ d v

theorem OpcodeNibble.ldr (d : RegNum) (v : Value2) : OpcodeNibble.Statement (.ldr d v) :=
  opcodeField_packWord _ d v

theorem OpcodeNibble.str (d : RegNum) (v : Value2) : OpcodeNibble.Statement (.str d v) :=
  opcodeField_packWord _ d v

theorem OpcodeNibble.reserved12 (d : RegNum) (v : Value2) : OpcodeNibble.Statement (.reserved12 d v) :=
  opcodeField_packWord _ d v

theorem OpcodeNibble.reserved13 (d : RegNum) (v : Value2) : OpcodeNibble.Statement (.reserved13 d v) :=
  opcodeField_packWord _ d v

theorem OpcodeNibble.reserved14 (d : RegNum) (v : Value2) : OpcodeNibble.Statement (.reserved14 d v) :=
  opcodeField_packWord _ d v

theorem OpcodeNibble.reserved15 (d : RegNum) (v : Value2) : OpcodeNibble.Statement (.reserved15 d v) :=
  opcodeField_packWord _ d v

theorem OpcodeNibble.sentinel : OpcodeNibble.Statement .sentinel := by
  unfold OpcodeNibble.Statement; decide

end Sys2Proof.Laws
end

