-- ==== Sys2Proof/Laws/Run.lean ====
section
/-! SUPPORT. What the host's loop, the event streams and the load can do. -/

namespace Sys2Proof.Machine

open Sys2Proof

@[simp] theorem ticks_zero (s : State) : ticks 0 s = .next s := rfl
theorem ticks_succ (n : Nat) (s : State) : ticks (n + 1) s = andThen (step s) (ticks n) := rfl

/-- One step more at the end. -/
theorem ticks_add_one (n : Nat) (s : State) : ticks (n + 1) s = andThen (ticks n s) step := by
  induction n generalizing s with
  | zero =>
    change andThen (step s) (ticks 0) = step s
    cases step s <;> rfl
  | succ n ih =>
    rw [ticks_succ, ticks_succ]
    cases h : step s with
    | next t => simpa [andThen] using ih t
    | fault _ => rfl
    | refused _ => rfl

@[simp] theorem Run.start_ticks (s : State) : (Run.start s).ticks = 0 := rfl
@[simp] theorem Run.start_state (s : State) : (Run.start s).state = s := rfl
@[simp] theorem Run.start_events (s : State) : (Run.start s).events = [] := rfl
@[simp] theorem boundMet_unbounded (n : Nat) : boundMet .unbounded n = false := rfl
@[simp] theorem boundMet_bounded (m n : Nat) : boundMet (.bounded m) n = (n == m) := rfl

/-- What a round does: one step, one more tick counted, its records added. -/
theorem round_some {r r' : Run} :
    r.round = some r' ↔ ∃ t, step r.state = .next t ∧ r' = ⟨r.ticks + 1, t, r.events ++ [tickEvents r.state]⟩ := by
  unfold Run.round
  cases h : step r.state <;> simp [eq_comm]

/-- What the loop does in its first round: it stops there or goes on from there. -/
theorem hostLoop_succ {bound : MaxTicks} {fuel : Nat} {r r'' : Run} :
    hostLoop bound (fuel + 1) r = some r'' ↔
      ∃ r', r.round = some r' ∧
        ((r'.stops bound = true ∧ r'' = r') ∨ (r'.stops bound = false ∧ hostLoop bound fuel r' = some r'')) := by
  simp only [hostLoop]
  cases h : r.round with
  | none => simp
  | some r' => by_cases hs : r'.stops bound = true <;> simp [hs, @eq_comm _ r'' r']

/-- A round that keeps `P` keeps it for the run the loop stops with; and there the loop's `until` holds. -/
theorem hostLoop_induct {bound : MaxTicks} {P : Run → Prop} (keep : ∀ r r', P r → r.round = some r' → P r') :
    ∀ {fuel : Nat} {r r' : Run}, P r → hostLoop bound fuel r = some r' → P r' ∧ r'.stops bound = true := by
  intro fuel
  induction fuel with
  | zero => intro r r' _ h; cases h
  | succ fuel ih =>
    intro r r'' hp h
    obtain ⟨r', hr, ⟨hs, rfl⟩ | ⟨_, hl⟩⟩ := hostLoop_succ.mp h
    · exact ⟨keep _ _ hp hr, hs⟩
    · exact ih (keep _ _ hp hr) hl

/-- More fuel changes nothing for a loop that has stopped. -/
theorem hostLoop_mono {bound : MaxTicks} {fuel fuel' : Nat} {r r' : Run} (hf : fuel ≤ fuel')
    (h : hostLoop bound fuel r = some r') : hostLoop bound fuel' r = some r' := by
  induction fuel generalizing r fuel' with
  | zero => cases h
  | succ fuel ih =>
    obtain ⟨k, rfl⟩ : ∃ k, fuel' = k + 1 := ⟨fuel' - 1, by omega⟩
    obtain ⟨r1, hr, h1 | ⟨hs, hl⟩⟩ := hostLoop_succ.mp h
    · exact hostLoop_succ.mpr ⟨r1, hr, .inl h1⟩
    · exact hostLoop_succ.mpr ⟨r1, hr, .inr ⟨hs, ih (by omega) hl⟩⟩

/-- The loop stops with one run at most, so `hostRun` does not depend on its fuel where it stops. -/
theorem hostRuns_unique {bound : MaxTicks} {s : State} {r r' : Run} (h : HostRuns bound s r) (h' : HostRuns bound s r') :
    r = r' := by
  obtain ⟨f, h⟩ := h
  obtain ⟨f', h'⟩ := h'
  have a := hostLoop_mono (Nat.le_max_left f f') h
  rw [hostLoop_mono (Nat.le_max_right f f') h'] at a
  exact (Option.some.inj a).symm

@[simp] theorem admitsStream_nil (stream : List Event) : AdmitsStream [] stream ↔ stream = [] := Iff.rfl
@[simp] theorem admitsStream_cons (e : TickEvents) (es : List TickEvents) (stream : List Event) :
    AdmitsStream (e :: es) stream ↔ ∃ first rest, e.Admits first ∧ AdmitsStream es rest ∧ stream = first ++ rest := Iff.rfl

/-- Writing words that fit from `a` up is never refused. -/
theorem writeWordsFrom_ok (ws : List Word) (a : Nat) (s : State) (h : a + ws.length ≤ 1024) :
    ∃ t, writeWordsFrom a ws s = .ok t := by
  induction ws generalizing a s with
  | nil => exact ⟨s, rfl⟩
  | cons w ws ih =>
    simp only [List.length_cons] at h
    simp only [writeWordsFrom, writeInstructionMemory, show a < 1024 by omega, ↓reduceDIte]
    exact ih _ _ (by omega)

/-- A program of at most 1024 words is loaded. -/
theorem loadProgram_ok (ws : List Word) (s : State) (h : ws.length ≤ 1024) : ∃ t, loadProgram ws s = .ok t := by
  rw [loadProgram, if_neg (by omega)]
  exact writeWordsFrom_ok ws 0 s (by omega)

end Sys2Proof.Machine
end

