-- ==== Sys2Proof/Tests/Slice0.lean ====
section
/-! SUPPORT. The model's own tests: words written out from the encoding of 30_encoding.md R81 and R88, rows of
95_test_vectors.md, the smoke tests of WellFormed, and for every statement with hypotheses a state that meets them. -/

namespace Sys2Proof.Tests

open Sys2Proof Sys2Proof.Machine

/-! ### Helpers -/

/-- An outcome is a next state with a property. -/
def after (o : Result) (p : State → Bool) : Bool :=
  match o with
  | .next s => p s
  | .fault _ => false
  | .refused _ => false

/-- An outcome is that fault. -/
def faults (o : Result) (e : Fault) : Bool :=
  match o with
  | .next _ => false
  | .fault r => r == e
  | .refused _ => false

/-- The next state, or the state itself. -/
def nextState (s : State) : State :=
  match step s with
  | .next t => t
  | .fault _ => s
  | .refused _ => s

/-- Reset with some registers set. -/
def withRegs (l : List (RegNum × Int)) : State :=
  l.foldl (fun s e => s.writeReg e.1 (wrap8 e.2)) State.reset

/-- Reset with a program loaded from address 0. -/
def loaded (ws : List Word) : State :=
  match loadProgram ws State.reset with
  | .ok s => s
  | .error _ => State.reset

/-- Reset with the instruction of that word in L4, about to be dispatched. -/
def about (w : Word) (s : State) : State := { s with l4 := occupiedLatch (decodeRecord w) 0 }

/-- The same machine with `V2_REG_INDEX = masked`. -/
def masked (s : State) : State := { s with v2RegIndex := .masked }

/-! ### Decoding: every constructor by a word written out field by field (R81, R88, R90) -/

theorem test_decode_add : decode 0b0000_000000_000001 = .add 0 1 := by decide
theorem test_decode_sub : decode 0b0001_000010_000011 = .sub 2 3 := by decide
theorem test_decode_mul : decode 0b0010_000100_000101 = .mul 4 5 := by decide
theorem test_decode_movi : decode 0b0011_000001_111111 = .movi 1 (-1) := by decide
theorem test_decode_beqz : decode 0b0100_000001_111110 = .beqz 1 (-2) := by decide
theorem test_decode_andi : decode 0b0101_000000_001111 = .andi 0 15 := by decide
theorem test_decode_eor : decode 0b0110_000001_000010 = .eor 1 2 := by decide
theorem test_decode_br : decode 0b0111_000101_000110 = .br 5 6 := by decide
theorem test_decode_sal : decode 0b1000_000011_000010 = .sal 3 2 := by decide
theorem test_decode_sar : decode 0b1001_111111_000001 = .sar 63 1 := by decide
theorem test_decode_ldr : decode 0b1010_000010_000111 = .ldr 2 7 := by decide
theorem test_decode_str : decode 0b1011_001001_011111 = .str 9 31 := by decide
theorem test_decode_reserved12 : decode 0b1100_000000_000000 = .reserved12 0 0 := by decide
theorem test_decode_reserved13 : decode 0b1101_010101_010101 = .reserved13 21 21 := by decide
theorem test_decode_reserved14 : decode 0b1110_000001_100000 = .reserved14 1 (-32) := by decide
theorem test_decode_reserved15 : decode 0b1111_111111_111110 = .reserved15 63 (-2) := by decide
theorem test_decode_sentinel : decode 0b1111_111111_111111 = .sentinel := by decide

/-- 95_test_vectors.md 2.1: `0x3FE0` is opcode 3, operand1 63, value2 -32, type I. -/
theorem test_decode_record : decodeRecord 0x3FE0 = ⟨3, 63, -32, .I⟩ := by decide
theorem test_encode_movi : encode (.movi 63 (-32)) = 0x3FE0 := by decide
theorem test_encode_beqz : encode (.beqz 1 (-2)) = 0x407E := by decide
theorem test_decode_no_word : decodeNext [] = .error .noWord := by decide
theorem test_table_word : decodeTableWord 16 0x7146 = some (.br 5 6) := by decide
theorem test_table_word_short : decodeTableWord 8 0x46 = none := by decide

/-! ### WellFormed: an ill-formed term for each check -/

theorem test_wf_refuses_sentinel_pattern : (Instr.reserved15 63 (-1)).wellFormed = false := by decide
theorem test_wf_accepts_its_neighbour : (Instr.reserved15 63 (-2)).wellFormed = true := by decide
theorem test_line_refuses_register_64 : (AsmLine.mk .ADD (.reg 64) (.reg 1)).wellFormed = false := by decide
theorem test_line_refuses_decimal_operand1 : (AsmLine.mk .ADD (.dec 0) (.reg 1)).wellFormed = false := by decide
theorem test_line_refuses_decimal_for_type_r : (AsmLine.mk .ADD (.reg 0) (.dec 1)).wellFormed = false := by decide
theorem test_line_refuses_second_register_64 : (AsmLine.mk .BR (.reg 0) (.reg 64)).wellFormed = false := by decide
theorem test_line_refuses_register_for_type_i : (AsmLine.mk .LDR (.reg 0) (.reg 1)).wellFormed = false := by decide
theorem test_line_refuses_42 : (AsmLine.mk .MOVI (.reg 2) (.dec 42)).wellFormed = false := by decide
theorem test_line_refuses_minus_33 : (AsmLine.mk .MOVI (.reg 2) (.dec (-33))).wellFormed = false := by decide

/-- 90_conflicts.md C1: `MOVI R2 42` is refused, naming its line (here line 1). -/
theorem test_assemble_names_the_line :
    assemble [⟨.MOVI, .reg 0, .dec 0⟩, ⟨.MOVI, .reg 2, .dec 42⟩] = .error (.badLine 1) := by rfl
theorem test_assemble : assemble [⟨.MOVI, .reg 0, .dec 5⟩, ⟨.ADD, .reg 0, .reg 1⟩] = .ok [0x3005, 0x0001] := by rfl

/-! ### The instructions: rows of 95_test_vectors.md part 2 -/

theorem test_add_overflow :
    after (exec (.add 0 1) (withRegs [(0, 127), (1, 1)])) (fun t => t.readReg 0 == 0x80 && t.sr == 0x06) = true := by decide
theorem test_add_formula_corner :
    after (exec (.add 0 1) (withRegs [(0, -128), (1, -128)])) (fun t => t.readReg 0 == 0 && t.sr == 0x19) = true := by decide
theorem test_sub_keeps_carry :
    after (exec (.sub 0 1) { withRegs [(0, 5), (1, 5)] with sr := 1 }) (fun t => t.readReg 0 == 0 && t.sr == 0x19) = true := by
  decide
theorem test_sub_formula_corner :
    after (exec (.sub 0 1) (withRegs [(0, 0), (1, -128)])) (fun t => t.readReg 0 == 0x80 && t.sr == 0x04) = true := by decide
theorem test_mul_same_register :
    after (exec (.mul 0 0) (withRegs [(0, -12)])) (fun t => t.readReg 0 == wrap8 (-112) && t.sr == 0x04) = true := by decide
theorem test_mul_keeps_cvs :
    after (exec (.mul 0 1) { withRegs [(0, 2), (1, 3)] with sr := 0x0B }) (fun t => t.readReg 0 == 6 && t.sr == 0x0B) = true := by
  decide
theorem test_movi_keeps_flags :
    after (exec (.movi 1 (-1)) { withRegs [] with sr := 4 }) (fun t => t.readReg 1 == 0xFF && t.sr == 4) = true := by decide
theorem test_beqz_wraps :
    after (exec (.beqz 0 31) { withRegs [] with pcLow := 250 }) (fun t => t.pcView == 24 && t.l4.payload.isNone) = true := by decide
theorem test_beqz_not_taken :
    after (exec (.beqz 0 0) { withRegs [(0, 1)] with pcLow := 4 }) (fun t => t.pcView == 4) = true := by decide
theorem test_andi_sign_extends :
    after (exec (.andi 0 (-32)) (withRegs [(0, -1)])) (fun t => t.readReg 0 == 0xE0 && t.sr == 0x04) = true := by decide
theorem test_eor_keeps_sign_flag :
    after (exec (.eor 1 1) (withRegs [(1, 99)])) (fun t => t.readReg 1 == 0 && t.sr == 0x10) = true := by decide
theorem test_eor_masked :
    after (exec (.eor 0 (-32)) (masked (withRegs [(0, 4), (32, 6)]))) (fun t => t.readReg 0 == 2) = true := by decide
theorem test_br_reads_unsigned :
    after (exec (.br 5 6) (withRegs [(5, 3), (6, -28)])) (fun t => t.pcView == 228) = true := by decide
theorem test_br_faults : faults (exec (.br 5 (-2)) (withRegs [])) .v2RegIndexNegative = true := by decide
theorem test_sal_by_the_width :
    after (exec (.sal 3 8) (withRegs [(3, 5)])) (fun t => t.readReg 3 == 0 && t.sr == 0x10) = true := by decide
theorem test_sal_faults : faults (exec (.sal 3 (-1)) (withRegs [(3, 4)])) .shiftCountNegative = true := by decide
theorem test_sar_rounds_down :
    after (exec (.sar 3 1) (withRegs [(3, -3)])) (fun t => t.readReg 3 == wrap8 (-2) && t.sr == 0x04) = true := by decide
theorem test_sar_31 :
    after (exec (.sar 3 31) (withRegs [(3, -100)])) (fun t => t.readReg 3 == 0xFF) = true := by decide
theorem test_ldr :
    after (exec (.ldr 2 7) { withRegs [] with dm := [(7, 0xFB)] }) (fun t => t.readReg 2 == 0xFB && t.sr == 0) = true := by decide
theorem test_ldr_faults : faults (exec (.ldr 2 (-1)) (withRegs [])) .dataAddressNegative = true := by decide
theorem test_str :
    after (exec (.str 9 31) (withRegs [(9, -1)])) (fun t => t.dm == [(31, 0xFF)]) = true := by decide
theorem test_str_zero_removes_the_cell :
    after (exec (.str 9 31) { withRegs [] with dm := [(31, 0xFF)] }) (fun t => t.dm == []) = true := by decide
theorem test_reserved12 : after (exec (.reserved12 0 0) (withRegs [])) (fun t => t == State.reset) = true := by decide

/-! ### Ticks -/

theorem test_step_dispatches :
    after (step (State.reset.withFetchWord 16 0x3005))
      (fun t => t.readReg 0 == 5 && t.pcView == 1 && t.runStatus == .terminated) = true := by decide
theorem test_step_sentinel :
    after (step (State.reset.withFetchWord 16 0xFFFF))
      (fun t => t.pcView == 0 && t.runStatus == .terminated && t.cycle == 1) = true := by decide
/-- 95_test_vectors.md 2.10: a model fault leaves the status Faulted, and the fetched and decoded words in place. -/
theorem test_step_fault :
    after (step (State.reset.withFetchWord 16 0x0028))
      (fun t => t.runStatus == .faulted .v2RegIndexNegative && t.readReg 0 == 0 && t.pcView == 1) = true := by decide
/-- 95_test_vectors.md 1.2: after the first tick L1 and L2 hold address 0, L3 and L4 are Empty, the PC is 1. -/
theorem test_first_tick :
    after (step (loaded [0x3005, 0x3043])) (fun t => t.l1 == ⟨some 0x3005, 0⟩ && t.l2 == ⟨some (decodeRecord 0x3005), 0⟩ &&
      t.l3.payload.isNone && t.l4.payload.isNone && t.pcView == 1) = true := by decide

/-! ### Witnesses: the hypotheses of the statements can be met -/

theorem wit_DecodeOfEncode : (Instr.ldr 63 (-32)).wellFormed = true := by decide
theorem wit_EncoderPacks : (11 : Opcode).toNat < 12 := by decide
theorem wit_AssemblerLines :
    (AsmLine.mk .MOVI (.reg 63) (.dec (-32))).wellFormed = true ∧ (AsmLine.mk .ADD (.reg 0) (.reg 63)).wellFormed = true ∧
      (AsmLine.mk .MOVI (.reg 0) (.dec 32)).wellFormed = false := by decide
theorem wit_LoadPlaces :
    (List.replicate 1024 (0 : Word)).length ≤ 1024 ∧ 1024 < (List.replicate 1025 (0 : Word)).length := by
  simp only [List.length_replicate]; omega
/-- AddMeaning, SubMeaning, MulMeaning, EorMeaning, BrMeaning: both ways to an index at the ends of their ranges, and the fault. -/
theorem wit_SourceIndex :
    SourceIndex State.reset 0 0 ∧ SourceIndex State.reset 31 31 ∧ SourceIndex (masked State.reset) (-32) 32 ∧
      SourceIndex (masked State.reset) (-1) 63 := by unfold SourceIndex; decide
theorem wit_SourceFaults : SourceFaults State.reset (-1) ∧ SourceFaults State.reset (-32) := by unfold SourceFaults; decide
/-- SalMeaning, SarMeaning, ShiftCountRule, LdrMeaning, AddressingRule, SecondRegisterRule: the ends of each clause. -/
theorem wit_Value2Ranges :
    0 ≤ value2Int 0 ∧ 0 ≤ value2Int 31 ∧ 8 ≤ value2Int 8 ∧ value2Int (-1) < 0 ∧ value2Int (-32) < 0 ∧
      (((31 : DmAddr).val : Int) = value2Int 31) ∧ (((0 : DmAddr).val : Int) = value2Int 0) := by decide
theorem wit_StrAddress : dataAddress 0 = .ok 0 ∧ dataAddress 31 = .ok 31 := ⟨rfl, rfl⟩
theorem wit_LoadAfterStore : ∃ t, exec (.str 1 31) State.reset = .next t := ⟨_, rfl⟩
theorem wit_CanonicalMemories : Memory.wf (loaded [0x3005]) = true := by decide
theorem wit_InstructionMemory :
    (∃ t, exec (.str 1 31) State.reset = .next t) ∧ ∃ t, step (loaded [0x3005]) = .next t := ⟨⟨_, rfl⟩, ⟨_, rfl⟩⟩
theorem wit_DataMemoryAbove :
    (∃ t, step (about 0xB25F (withRegs [(9, -1)])) = .next t) ∧ 32 ≤ (32 : DmAddr).val ∧ 32 ≤ (2047 : DmAddr).val :=
  ⟨⟨_, rfl⟩, by decide, by decide⟩
theorem wit_Beqz : xInt State.reset 0 = 0 ∧ xInt (withRegs [(0, -128)]) 0 ≠ 0 := by decide
theorem wit_Reserved :
    12 ≤ (opcodeField 0xC000).toNat ∧ (0xC000 : Word) ≠ 0xFFFF ∧ 12 ≤ (opcodeField 0xFFFE).toNat ∧ (0xFFFE : Word) ≠ 0xFFFF := by
  decide
theorem wit_Sentinel : State.reset.fetchedWord = 0xFFFF := by decide
theorem wit_ParameterMatters :
    ∀ d v, Instr.add 0 31 = .add d v ∨ Instr.add 0 31 = .sub d v ∨ Instr.add 0 31 = .mul d v ∨ Instr.add 0 31 = .eor d v ∨
      Instr.add 0 31 = .br d v → 0 ≤ value2Int v := by
  rintro d v (h | h | h | h | h) <;> cases h
  decide
theorem wit_FlagsChange :
    ∃ t, exec (.add 0 1) (withRegs [(0, -1), (1, -1)]) = .next t ∧
      t.flag .C ≠ (withRegs [(0, -1), (1, -1)]).flag .C ∧ t.flag .N ≠ (withRegs [(0, -1), (1, -1)]).flag .N :=
  ⟨_, rfl, by decide, by decide⟩
theorem wit_FlagsChangeVS :
    (∃ t, exec (.sub 0 1) (withRegs [(0, -128), (1, 1)]) = .next t ∧ t.flag .V ≠ (withRegs [(0, -128), (1, 1)]).flag .V) ∧
      ∃ t, exec (.sub 0 0) State.reset = .next t ∧ t.flag .S ≠ State.reset.flag .S ∧ t.flag .Z ≠ State.reset.flag .Z :=
  ⟨⟨_, rfl, by decide⟩, ⟨_, rfl, by decide, by decide⟩⟩
theorem wit_RegistersChange : ∃ t, exec (.movi 63 31) State.reset = .next t ∧ t.readReg 63 ≠ State.reset.readReg 63 :=
  ⟨_, rfl, by decide⟩
theorem wit_OnlyTakenBranches : ∃ t, exec (.beqz 0 0) State.reset = .next t ∧ Instr.beqz 0 0 ≠ .sentinel :=
  ⟨_, rfl, by decide⟩
theorem wit_StatusBits : ∃ t, step (about 0x0001 State.reset) = .next t := ⟨_, rfl⟩
/-- StepRunsTheInstructionInLatchFour: a dispatch that completes, one that faults, and an Empty L4. -/
theorem wit_StepRuns :
    (∃ r t, (about 0x0001 State.reset).runStatus = .running ∧ (about 0x0001 State.reset).l4.payload = some r ∧
        exec r.instr (frontEnd (about 0x0001 State.reset)) = .next t) ∧
      (∃ r, (about 0x003F State.reset).l4.payload = some r ∧
        exec r.instr (frontEnd (about 0x003F State.reset)) = .fault .v2RegIndexNegative) ∧
      State.reset.l4.payload = none :=
  ⟨⟨_, _, rfl, rfl, rfl⟩, ⟨_, rfl, rfl⟩, rfl⟩
theorem wit_FetchStep :
    State.reset.ifetch (imAddrOf State.reset.pcView) = 0xFFFF ∧
      (loaded [0x3005]).ifetch (imAddrOf (loaded [0x3005]).pcView) ≠ 0xFFFF := by decide
theorem wit_DecodeStep :
    (∃ r w, (nextState (loaded [0x3005])).l2.payload = some r ∧ (nextState (loaded [0x3005])).l1.payload = some w) ∧
      State.reset.l2.payload = none ∧ State.reset.l1.payload = none := ⟨⟨_, _, rfl, rfl⟩, rfl, rfl⟩
theorem wit_ExecuteStep :
    State.reset.l4.payload = none ∧
      ∃ r u, (about 0x0001 State.reset).l4.payload = some r ∧ exec r.instr (about 0x0001 State.reset) = .next u :=
  ⟨rfl, ⟨_, _, rfl, rfl⟩⟩
theorem wit_ModelFault :
    ∃ r, (about 0xA0BF State.reset).runStatus = .running ∧ (about 0xA0BF State.reset).l4.payload = some r ∧
      exec r.instr (frontEnd (about 0xA0BF State.reset)) = .fault .dataAddressNegative := ⟨_, rfl, rfl, rfl⟩
/-- TakenBranchSquashesAndRedirects: a BEQZ to 0 + 31 - 1 and a BR to register 6. -/
theorem wit_TakenBranch :
    (∃ r d v, (about 0x401F State.reset).runStatus = .running ∧ (about 0x401F State.reset).l4.payload = some r ∧
        r.instr = .beqz d v ∧ (about 0x401F State.reset).readReg d = 0 ∧
        (((30 : Byte).toNat : Int) = (((frontEnd (about 0x401F State.reset)).pcView.toNat : Int) + value2Int v - 1) % 256)) ∧
      ∃ r d v i, (about 0x7146 (withRegs [(6, 5)])).l4.payload = some r ∧ r.instr = .br d v ∧
        SourceIndex (about 0x7146 (withRegs [(6, 5)])) v i ∧ (5 : Byte) = (about 0x7146 (withRegs [(6, 5)])).readReg i :=
  ⟨⟨_, 0, 31, rfl, rfl, rfl, by decide, by decide⟩, ⟨_, 5, 6, 6, rfl, rfl, .inl (by decide), by decide⟩⟩
/-- A state whose L4 holds a BEQZ of a zero register squashes. -/
theorem squashes_about_beqz (s : State) (h : s.readReg 0 = 0) : Squashes (about 0x401F s) :=
  ⟨_, rfl, .inl ⟨0, 31, rfl, h⟩⟩
/-- TakenBranchEndsTheRunAtTheSentinel: with the sentinel fetched in the same tick, and with another word. -/
theorem wit_TakenBranchEnds :
    (Squashes (about 0x401F State.reset) ∧ (about 0x401F State.reset).runStatus = .running ∧
        (about 0x401F State.reset).fetchedWord = sentinelWord ∧ ∃ t, step (about 0x401F State.reset) = .next t) ∧
      Squashes (about 0x401F (loaded [0x3005])) ∧ (about 0x401F (loaded [0x3005])).runStatus = .running ∧
        (about 0x401F (loaded [0x3005])).fetchedWord ≠ sentinelWord ∧ ∃ t, step (about 0x401F (loaded [0x3005])) = .next t :=
  ⟨⟨squashes_about_beqz _ (by decide), rfl, by decide, ⟨_, rfl⟩⟩,
    ⟨squashes_about_beqz _ (by decide), rfl, by decide, ⟨_, rfl⟩⟩⟩
/-- An Empty L4 does not squash. -/
theorem not_squashes_of_empty {s : State} (h : s.l4.payload = none) : ¬ Squashes s := by
  rintro ⟨r, hr, _⟩; rw [h] at hr; cases hr
theorem notFaulted_of_running {s : State} (h : s.runStatus = .running) : NotFaulted s := by
  intro e; rw [h]; simp
/-- The invariant of a state with a program loaded and an instruction in L4. -/
theorem inv_about_loaded (w : Word) (hw : w ≠ sentinelWord) : Inv (about w (loaded [0x3005])) where
  memory := (wf_congr (s := loaded [0x3005]) rfl rfl).trans (by decide)
  reserved := by
    intro b _
    change (loaded [0x3005]).sr.getLsbD b = false
    rw [show (loaded [0x3005]).sr = 0 by decide]; exact BitVec.getLsbD_zero
  high := by
    intro a _
    change Cells.read dmUnlisted (loaded [0x3005]).dm a.val = 0
    rw [show (loaded [0x3005]).dm = [] by decide]; rfl
  fetched := by
    intro _ h
    change (loaded [0x3005]).l1.payload = _ at h
    rw [show (loaded [0x3005]).l1.payload = none by decide] at h; cases h
  decoded := by
    intro _ h
    change (loaded [0x3005]).l2.payload = _ at h
    rw [show (loaded [0x3005]).l2.payload = none by decide] at h; cases h
  staged := by
    intro _
    change (loaded [0x3005]).l3.payload = none
    decide
  records := by
    refine ⟨?_, fun r h => ?_⟩
    · intro _ h
      change (loaded [0x3005]).l3.payload = _ at h
      rw [show (loaded [0x3005]).l3.payload = none by decide] at h; cases h
    · cases h; exact ⟨w, hw, rfl⟩
  ended := by
    intro h
    change (loaded [0x3005]).runStatus = _ at h
    rw [show (loaded [0x3005]).runStatus = .running by decide] at h; cases h
/-- StepKeepsTheInvariant and LatchesAfterATick: a tick without and a tick with a squash. -/
theorem wit_Invariant :
    (Inv (about 0x0001 (loaded [0x3005])) ∧ (about 0x0001 (loaded [0x3005])).runStatus = .running ∧
        (∃ t, step (about 0x0001 (loaded [0x3005])) = .next t ∧ NotFaulted t) ∧
        ¬ Squashes (about 0x0001 (loaded [0x3005]))) ∧
      Inv (about 0x401F (loaded [0x3005])) ∧ Squashes (about 0x401F (loaded [0x3005])) ∧
        ∃ t, step (about 0x401F (loaded [0x3005])) = .next t ∧ NotFaulted t := by
  refine ⟨⟨inv_about_loaded _ (by decide), rfl, ⟨_, rfl, notFaulted_of_running (by decide)⟩, ?_⟩,
    inv_about_loaded _ (by decide), squashes_about_beqz _ (by decide), ⟨_, rfl, notFaulted_of_running (by decide)⟩⟩
  rintro ⟨r, hr, h⟩
  cases hr
  rcases h with ⟨d, v, h, _⟩ | ⟨d, v, i, h, _⟩ <;> exact absurd h (by simp [DecodedRecord.instr, instrOf, decodeRecord, opcodeField])
/-- TerminationRule: unbounded, the least bound that is met, a bound above the run's length, and the bound 0, which is never met. -/
theorem wit_Termination :
    State.reset.runStatus = .running ∧ (∃ r, HostRuns .unbounded State.reset r) ∧
      (∃ r, HostRuns (.bounded 1) (loaded [0x3005]) r ∧ r.state.runStatus = .running ∧ r.ticks = 1) ∧
      (∃ r, HostRuns (.bounded 3) (loaded [0x3005]) r ∧ r.state.runStatus = .terminated) ∧
      ∃ r, HostRuns (.bounded 0) (loaded [0x3005]) r ∧ r.ticks = 3 :=
  ⟨rfl, ⟨_, 1, rfl⟩, ⟨_, ⟨1, rfl⟩, by decide, rfl⟩, ⟨_, ⟨3, rfl⟩, by decide⟩, ⟨_, ⟨3, rfl⟩, rfl⟩⟩
theorem wit_Stopped :
    (nextState State.reset).runStatus = .terminated ∧ (State.reset.recordFault .shiftCountNegative).runStatus =
      .faulted .shiftCountNegative := by decide
/-- Two ticks from a load, neither squashing, the second leaving the block Running. -/
def TwoPlainTicks (s : State) : Prop :=
  ∃ s1 s2, s.runStatus = .running ∧ s.fetchedWord ≠ sentinelWord ∧ step s = .next s1 ∧ ¬ Squashes s ∧ step s1 = .next s2 ∧
    ¬ Squashes s1 ∧ s2.runStatus = .running
/-- FetchToDispatchTakesTwoTicks and PcViewAtDispatch: with the sentinel after the word, one word later, and later than that. -/
theorem wit_TwoTicks :
    TwoPlainTicks (loaded [0x3005]) ∧ TwoPlainTicks (loaded [0x3005, 0x3043]) ∧
      TwoPlainTicks (loaded [0x3005, 0x3043, 0x0001]) :=
  ⟨⟨_, _, rfl, by decide, rfl, not_squashes_of_empty rfl, rfl, not_squashes_of_empty rfl, by decide⟩,
    ⟨_, _, rfl, by decide, rfl, not_squashes_of_empty rfl, rfl, not_squashes_of_empty rfl, by decide⟩,
    ⟨_, _, rfl, by decide, rfl, not_squashes_of_empty rfl, rfl, not_squashes_of_empty rfl, by decide⟩⟩
theorem wit_PcViewCases :
    (loaded [0x3005]).ifetch (pcAfter (loaded [0x3005]).pcView 1) = sentinelWord ∧
      (loaded [0x3005, 0x3043]).ifetch (pcAfter (loaded [0x3005, 0x3043]).pcView 1) ≠ sentinelWord ∧
      (loaded [0x3005, 0x3043]).ifetch (pcAfter (loaded [0x3005, 0x3043]).pcView 2) = sentinelWord ∧
      (loaded [0x3005, 0x3043, 0x0001]).ifetch (pcAfter (loaded [0x3005, 0x3043, 0x0001]).pcView 2) ≠ sentinelWord := by
  decide
theorem wit_Drain :
    State.reset.runStatus = .running ∧ State.reset.fetchedWord = sentinelWord ∧
      ∃ s1, step State.reset = .next s1 ∧ NotFaulted s1 :=
  ⟨rfl, by decide, _, rfl, by intro e h; cases h⟩
/-- `MOVI R0 5` is a word of a straight-line program. -/
theorem straightLine_movi : StraightLine 0x3005 := by
  unfold StraightLine
  rw [show decode 0x3005 = .movi 0 5 by decide]
  exact ⟨by decide, fun _ _ h => (by cases h), fun _ _ h => (by cases h), fun _ _ h => (by cases h)⟩
/-- StraightLineRunLength: 1 and 255 words that cannot branch or fault, and 256 and 1024 of them for the run without an end. -/
theorem wit_StraightLine (n : Nat) (h : n = 1 ∨ n = 255 ∨ n = 256 ∨ n = 1024) :
    (∃ s, loadProgram (List.replicate n 0x3005) (resetProcessor State.reset) = .ok s) ∧
      (∀ w ∈ List.replicate n (0x3005 : Word), StraightLine w) ∧ (List.replicate n (0x3005 : Word)).length = n :=
  ⟨loadProgram_ok _ _ (by simp; omega), fun w hw => by rw [List.eq_of_mem_replicate hw]; exact straightLine_movi, by simp⟩
/-- An L4 with an instruction that is no BR, and no BEQZ of a zero register, does not squash. -/
theorem not_squashes_of_instr {s : State} {r : DecodedRecord} (h : s.l4.payload = some r)
    (hz : ∀ d v, r.instr = .beqz d v → s.readReg d ≠ 0) (hb : ∀ d v, r.instr ≠ .br d v) : ¬ Squashes s := by
  rintro ⟨r', hr', ⟨d, v, hi, hd⟩ | ⟨d, v, i, hi, _⟩⟩ <;> rw [h] at hr' <;> cases hr'
  · exact hz d v hi hd
  · exact hb d v hi
/-- StraightLineRunLength: `MOVI R0 5` and a `BEQZ R0 0` that is not taken: no tick of the run squashes or faults. -/
theorem wit_NotTaken (k : Nat) (t : State) (hk : k ≤ 4) (h : ticks k (loaded [0x3005, 0x4000]) = .next t) :
    ¬ Squashes t ∧ NotFaulted t := by
  match k, hk with
  | 0, _ => cases h; exact ⟨not_squashes_of_empty rfl, notFaulted_of_running (by decide)⟩
  | 1, _ => cases h; exact ⟨not_squashes_of_empty rfl, notFaulted_of_running (by decide)⟩
  | 2, _ =>
    cases h
    exact ⟨not_squashes_of_instr (r := decodeRecord 0x3005) rfl (fun _ _ h => by cases h) (fun _ _ h => by cases h),
      notFaulted_of_running (by decide)⟩
  | 3, _ =>
    cases h
    exact ⟨not_squashes_of_instr (r := decodeRecord 0x4000) rfl (fun _ _ h => by cases h; decide) (fun _ _ h => by cases h),
      notFaulted_of_running (by decide)⟩
  | 4, _ => cases h; exact ⟨not_squashes_of_empty rfl, fun e h => by cases h⟩
/-- RecordsCarryTheTickNumber, EndOfRunIsReportedOnce: a run that ends Terminated, and one cut off while Running. -/
theorem wit_Runs :
    (∃ r stream, HostRuns .unbounded State.reset r ∧ AdmitsStream r.events stream ∧ stream ≠ [] ∧
        r.state.runStatus = .terminated) ∧
      ∃ r, HostRuns (.bounded 1) (loaded [0x3005]) r ∧ r.state.runStatus = .running :=
  ⟨⟨_, [.endOfRun (dump (nextState State.reset))], ⟨1, rfl⟩,
      ⟨_, [], ⟨[], [], [], .inl (List.Perm.refl _), List.Perm.refl _, List.Perm.refl _, rfl⟩, rfl, rfl⟩, by simp, by decide⟩,
    ⟨_, ⟨1, rfl⟩, by decide⟩⟩
theorem wit_Placed : (0x3005 : Word) ≠ 0xFFFF := by decide
theorem wit_Changes :
    (about 0x3005 State.reset).runStatus = .running ∧ ∃ t, step (about 0x3005 State.reset) = .next t ∧
      t.readReg 0 ≠ (about 0x3005 State.reset).readReg 0 := ⟨rfl, _, rfl, by decide⟩
theorem wit_ChangesFlag :
    ∃ t, step (about 0x0001 State.reset) = .next t ∧ t.flag .Z ≠ (about 0x0001 State.reset).flag .Z := ⟨_, rfl, by decide⟩
theorem wit_Records :
    ∃ stream e, (tickEvents (loaded [0x3005])).Admits stream ∧ e ∈ stream :=
  ⟨[.fetch 1 0 0x3005, .pcUpdate 1 1, .decode 1 0 (decodeRecord 0x3005)], .fetch 1 0 0x3005,
    ⟨[.fetch 1 0 0x3005, .pcUpdate 1 1], [.decode 1 0 (decodeRecord 0x3005)], [], .inl (List.Perm.refl _), List.Perm.refl _,
      List.Perm.refl _, rfl⟩, by simp⟩
theorem wit_EndOfRun :
    (∃ t, step State.reset = .next t ∧ State.reset.runStatus = .running ∧ t.runStatus = .terminated) ∧
      ∃ t, step (loaded [0x3005]) = .next t ∧ ¬((loaded [0x3005]).runStatus = .running ∧ t.runStatus = .terminated) :=
  ⟨⟨_, rfl, rfl, by decide⟩, ⟨_, rfl, by decide⟩⟩

end Sys2Proof.Tests
end

/-! PROOFS. The state (10_state.md): what a step reads and what an instruction leaves unchanged. -/

namespace Sys2Proof.Machine

open Sys2Proof

/-! ### What each part of a tick may change -/

/-- The records of the decode-step go to L2 and L3 only (R105, R106). -/
theorem decodeStep_frame (s : State) :
    decodeStep s =
      { s with l2 := (decodeStep s).l2, l3 := (decodeStep s).l3, freeCount := (decodeStep s).freeCount } := by
  unfold decodeStep State.decodeL1 State.promote
  cases s.l2.payload <;> (dsimp only; split <;> rfl)

/-- The move of L3 to L4 touches these two latches only (R107). -/
theorem advanceL3_frame (s : State) :
    s.advanceL3 = { s with l3 := s.advanceL3.l3, l4 := s.advanceL3.l4, freeCount := s.advanceL3.freeCount } := by
  unfold State.advanceL3
  cases s.l3.payload with
  | some r => rfl
  | none => dsimp only; unfold State.vacateL4; split <;> rfl

/-- `checkTermination()` as one condition (R112). -/
theorem checkTermination_eq (s : State) :
    checkTermination s =
      if s.runStatus = .running ∧ s.allLatchesEmpty = true then { s with runStatus := .terminated } else s := by
  unfold checkTermination
  cases s.runStatus <;> simp

/-- A tick: the front end, the execute-step on what it leaves, the termination check (R100). -/
theorem tick_eq (s : State) : tick s = mapNext checkTermination (executeStep (frontEnd s)) := by
  have front : decodeStep (if s.countTick.fetchedWord = sentinelWord then s.countTick.vacateL1
      else s.countTick.latchFetched) = frontEnd s := rfl
  unfold tick
  rw [fetchStep_eq]
  dsimp only [andThen]
  rw [front]
  cases executeStep (frontEnd s) <;> rfl

@[simp] theorem decodeStep_sr (s : State) : (decodeStep s).sr = s.sr := by rw [decodeStep_frame]

@[simp] theorem advanceL3_sr (s : State) : s.advanceL3.sr = s.sr := by rw [advanceL3_frame]

@[simp] theorem checkTermination_sr (s : State) : (checkTermination s).sr = s.sr := by
  rw [checkTermination_eq]; split <;> rfl

@[simp] theorem frontEnd_sr (s : State) : (frontEnd s).sr = s.sr := by
  unfold frontEnd; rw [decodeStep_sr]; split <;> rfl

/-- What the execute-step makes of the outcome of its dispatch in state `s` (R107, R122). -/
def afterDispatch (s : State) : Result → Result
  | .next t => .next t.vacateL4.advanceL3
  | .fault reason => .next (s.recordFault reason)
  | .refused q => .refused q

theorem executeStep_of_none {s : State} (h : s.l4.payload = none) : executeStep s = .next s.advanceL3 := by
  unfold executeStep; rw [h]

theorem executeStep_of_some {s : State} {r : DecodedRecord} (h : s.l4.payload = some r) :
    executeStep s = afterDispatch s (exec r.instr s) := by
  unfold executeStep
  rw [h]
  dsimp only [dispatch]
  cases exec r.instr s <;> rfl

/-- A Running block ticks (R100). -/
theorem step_of_running {s : State} (h : s.runStatus = .running) : step s = tick s := by
  unfold step stepState; rw [h]

/-- A Terminated block stays as it is (R184). -/
theorem step_of_terminated {s : State} (h : s.runStatus = .terminated) : step s = .next s := by
  unfold step stepState; rw [h]

/-- A Faulted block answers its fault (R172). -/
theorem step_of_faulted {s : State} {e : Fault} (h : s.runStatus = .faulted e) : step s = .fault e := by
  unfold step stepState; rw [h]

/-! ### What an instruction may change -/

/-- `t` is `s` with register `d` written and no status bit changed but the five flags. -/
def WritesRegister (d : RegNum) (s t : State) : Prop :=
  ∃ (x v : Byte), (∀ k, 5 ≤ k → x.getLsbD k = s.sr.getLsbD k) ∧ t = { s with sr := x }.writeReg d v

/-- All that an instruction which answers a next state can do, one case for each kind of effect. -/
inductive Effect (i : Instr) (s t : State) : Prop where
  /-- It writes its destination register, and flags at most beside it (R22, R133). -/
  | register (d : RegNum) (dest : destReg i = some d) (writes : WritesRegister d s t)
  /-- It stores one byte to a data-memory cell below 32 (R66, R152). -/
  | store (d : RegNum) (v : Value2) (ea : DmAddr) (isStr : i = .str d v) (low : ea.val < 32)
      (stores : t = s.memWrite ea (s.readReg d))
  /-- It takes a branch (R109). -/
  | branch (target : Byte) (isTaken : takesBranch i s = true) (takes : t = takeBranch target s)
  /-- It changes nothing: a BEQZ that is not taken, a reserved opcode (R160, R162). -/
  | nothing (same : t = s)
  /-- It is the sentinel, which the fetch-step runs (R103). -/
  | sentinel (isSentinel : i = .sentinel) (empties : t = s.vacateL1)

/-- ADD, SUB, MUL and EOR write Rd and flags, whatever the result and whichever the flags. -/
theorem registerOp_writes {result : Byte → Byte → Byte} {flags : Byte → Byte → Byte → State → State} {d : RegNum}
    {v : Value2} {s t : State} (only : ∀ a b r, flags a b r s = { s with sr := (flags a b r s).sr })
    (high : ∀ a b r k, 5 ≤ k → (flags a b r s).sr.getLsbD k = s.sr.getLsbD k)
    (h : registerOp result flags d v s = .next t) : WritesRegister d s t := by
  obtain ⟨i, -, rfl⟩ := registerOp_next h
  exact ⟨_, _, high _ _ _, by rw [← only]⟩

/-- A result written to Rd with N and Z. -/
theorem writeResultNz_writes (d : RegNum) (r : Byte) (s : State) : WritesRegister d s (writeResultNz d r s) :=
  ⟨_, r, fun _ hk => nzFlags_high r s hk, by rw [← nzFlags_eq]; rfl⟩

/-- A register written with no flag. -/
theorem writeReg_writes (d : RegNum) (v : Byte) (s : State) : WritesRegister d s (s.writeReg d v) :=
  ⟨s.sr, v, fun _ _ => rfl, rfl⟩

/-- SAL and SAR write Rd, N and Z. -/
theorem shiftOp_writes {result : Byte → Nat → Byte} {d : RegNum} {v : Value2} {s t : State}
    (h : shiftOp result d v s = .next t) : WritesRegister d s t := by
  obtain ⟨n, -, rfl⟩ := shiftOp_next h
  exact writeResultNz_writes _ _ s

/-- Every instruction that answers a next state does what its kind allows and nothing else. -/
theorem exec_effect {i : Instr} {s t : State} (h : exec i s = .next t) : Effect i s t := by
  cases i with
  | add d v => exact .register d rfl (registerOp_writes (addFlags_eq · · · s) (fun a b r _ => addFlags_high a b r s) h)
  | sub d v => exact .register d rfl (registerOp_writes (subFlags_eq · · · s) (fun a b r _ => subFlags_high a b r s) h)
  | mul d v => exact .register d rfl (registerOp_writes (fun _ _ r => nzFlags_eq r s) (fun _ _ r _ => nzFlags_high r s) h)
  | eor d v => exact .register d rfl (registerOp_writes (fun _ _ r => nzFlags_eq r s) (fun _ _ r _ => nzFlags_high r s) h)
  | movi d v => cases h; exact .register d rfl (writeReg_writes _ _ s)
  | andi d v => cases h; exact .register d rfl (writeResultNz_writes _ _ s)
  | sal d v => exact .register d rfl (shiftOp_writes h)
  | sar d v => exact .register d rfl (shiftOp_writes h)
  | ldr d v =>
    obtain ⟨ea, -, rfl⟩ := execLdr_next h
    exact .register d rfl (writeReg_writes _ _ s)
  | str d v =>
    obtain ⟨ea, hea, rfl⟩ := execStr_next h
    exact .store d v ea rfl (dataAddress_ok hea).2 rfl
  | beqz d v =>
    obtain ⟨hd, rfl⟩ | ⟨-, rfl⟩ := execBeqz_next h
    · exact .branch _ (by simpa [takesBranch] using hd) rfl
    · exact .nothing rfl
  | br d v =>
    obtain ⟨j, hj, rfl⟩ := execBr_next (d := d) h
    exact .branch _ (by simp [takesBranch, hj]) rfl
  | reserved12 => cases h; exact .nothing rfl
  | reserved13 => cases h; exact .nothing rfl
  | reserved14 => cases h; exact .nothing rfl
  | reserved15 => cases h; exact .nothing rfl
  | sentinel => cases h; exact .sentinel rfl rfl

/-- The instructions with a destination register: the list of R22. -/
theorem instr_of_destReg {i : Instr} {d : RegNum} (h : destReg i = some d) :
    ∃ v, i = .add d v ∨ i = .sub d v ∨ i = .mul d v ∨ i = .movi d v ∨ i = .andi d v ∨ i = .eor d v ∨ i = .sal d v ∨
      i = .sar d v ∨ i = .ldr d v := by
  cases i with
  | add _ v | sub _ v | mul _ v | movi _ v | andi _ v | eor _ v | sal _ v | sar _ v | ldr _ v =>
    cases h; exact ⟨v, by simp⟩
  | _ => cases h

/-- A taken branch is a BEQZ of a zero register or a BR. -/
theorem instr_of_takesBranch {i : Instr} {s : State} (h : takesBranch i s = true) :
    (∃ d v, i = .beqz d v ∧ s.readReg d = 0) ∨ ∃ d v, i = .br d v := by
  cases i with
  | beqz d v => exact .inl ⟨d, v, rfl, by simpa [takesBranch] using h⟩
  | br d v => exact .inr ⟨d, v, rfl⟩
  | _ => cases h

/-- No instruction writes status bits 5 to 7 (R51). -/
theorem exec_sr_high {i : Instr} {s t : State} (h : exec i s = .next t) {k : Nat} (hk : 5 ≤ k) :
    t.sr.getLsbD k = s.sr.getLsbD k := by
  cases exec_effect h with
  | register d _ writes =>
    obtain ⟨x, v, high, rfl⟩ := writes
    exact high k hk
  | store _ _ _ _ _ stores => rw [stores]; rfl
  | branch _ _ takes => rw [takes]; rfl
  | nothing same => rw [same]
  | sentinel _ empties => rw [empties]; rfl

/-- No execute-step writes status bits 5 to 7, whether it dispatches or faults (R51). -/
theorem executeStep_sr_high {s t : State} (h : executeStep s = .next t) {k : Nat} (hk : 5 ≤ k) :
    t.sr.getLsbD k = s.sr.getLsbD k := by
  obtain ⟨-, rfl⟩ | ⟨r, u, -, hu, rfl⟩ | ⟨r, e, -, -, rfl⟩ := executeStep_next h
  · rw [advanceL3_sr]
  · rw [advanceL3_sr, vacateL4_sr, exec_sr_high hu hk]
  · rfl

/-! ### Erasures: what no step reads

A step does not read what an erasure forgets when erasing before the step makes no difference after it. That is shown once
for every erasure that keeps what the parts of a tick read and that each of the state's updates respects. -/

/-- What `g` leaves, up to `f`, does not depend on what `f` erases. -/
def Respects (f g : State → State) : Prop := ∀ s, f (g (f s)) = f (g s)

/-- The same of an operation that may fault. -/
def ResultRespects (f : State → State) (g : State → Result) : Prop := ∀ s, mapNext f (g (f s)) = mapNext f (g s)

section Composition

variable {f g h : State → State} {o : State → Result}

theorem Respects.comp (hg : Respects f g) (hh : Respects f h) : Respects f (fun s => h (g s)) := fun s =>
  calc f (h (g (f s))) = f (h (f (g (f s)))) := (hh _).symm
    _ = f (h (f (g s))) := by rw [hg]
    _ = f (h (g s)) := hh _

theorem Respects.congr (hg : Respects f g) {s t : State} (hst : f s = f t) : f (g s) = f (g t) := by
  rw [← hg s, hst, hg t]

theorem Respects.ite {c : State → Prop} [DecidablePred c] (hc : ∀ s, c (f s) ↔ c s) (hg : Respects f g)
    (hh : Respects f h) : Respects f (fun s => if c s then g s else h s) := by
  intro s
  by_cases hs : c s
  · simp only [hc, hs, if_true, hg s]
  · simp only [hc, hs, if_false, hh s]

theorem Respects.compResult (hg : Respects f g) (ho : ResultRespects f o) : ResultRespects f (fun s => o (g s)) :=
  fun s =>
    calc mapNext f (o (g (f s))) = mapNext f (o (f (g (f s)))) := (ho _).symm
      _ = mapNext f (o (f (g s))) := by rw [hg]
      _ = mapNext f (o (g s)) := ho _

/-- An update after an operation depends on its outcome only up to the erasure. -/
theorem Respects.mapNext_erased (hg : Respects f g) (r : Result) :
    mapNext f (mapNext g (mapNext f r)) = mapNext f (mapNext g r) := by
  cases r with
  | next s => exact congrArg Host.Outcome.next (hg s)
  | fault e => rfl
  | refused q => rfl

/-- An operation that never faults. -/
theorem Respects.next (hg : Respects f g) : ResultRespects f (fun s => .next (g s)) := fun s =>
  congrArg Host.Outcome.next (hg s)

theorem ResultRespects.mapNext (ho : ResultRespects f o) (hg : Respects f g) :
    ResultRespects f (fun s => mapNext g (o s)) := fun s => by
  rw [← hg.mapNext_erased, ho s, hg.mapNext_erased]

end Composition

/-- The erasure `f` keeps what a tick reads, and every update of a tick respects it. -/
structure ErasesUnread (f : State → State) : Prop where
  idem : ∀ s, f (f s) = f s
  readReg : ∀ s i, (f s).readReg i = s.readReg i
  memRead : ∀ s a, (f s).memRead a = s.memRead a
  pcView : ∀ s, (f s).pcView = s.pcView
  fetchedWord : ∀ s, (f s).fetchedWord = s.fetchedWord
  v2RegIndex : ∀ s, (f s).v2RegIndex = s.v2RegIndex
  runStatus : ∀ s, (f s).runStatus = s.runStatus
  allLatchesEmpty : ∀ s, (f s).allLatchesEmpty = s.allLatchesEmpty
  instrInL4 : ∀ s, (f s).l4.payload.map DecodedRecord.instr = s.l4.payload.map DecodedRecord.instr
  writeReg : ∀ i v, Respects f (State.writeReg i v)
  setFlag : ∀ g b, Respects f (State.setFlag g b)
  memWrite : ∀ a v, Respects f (State.memWrite a v)
  takeBranch : ∀ target, Respects f (takeBranch target)
  countTick : Respects f State.countTick
  vacateL1 : Respects f State.vacateL1
  latchFetched : Respects f State.latchFetched
  promote : Respects f State.promote
  decodeL1 : Respects f State.decodeL1
  vacateL4 : Respects f State.vacateL4
  advanceL3 : Respects f State.advanceL3
  recordFault : ∀ e, Respects f (State.recordFault e)
  terminate : Respects f (fun s => { s with runStatus := .terminated })

namespace ErasesUnread

variable {f : State → State} (hf : ErasesUnread f)

include hf

theorem unchanged : Respects f (fun s => s) := hf.idem

/-! The instructions -/

theorem addFlags (a b r : Byte) : Respects f (addFlags a b r) :=
  ((((hf.setFlag .C _).comp (hf.setFlag .V _)).comp (hf.setFlag .N _)).comp (hf.setFlag .S _)).comp (hf.setFlag .Z _)

theorem subFlags (a b r : Byte) : Respects f (subFlags a b r) :=
  (((hf.setFlag .V _).comp (hf.setFlag .N _)).comp (hf.setFlag .S _)).comp (hf.setFlag .Z _)

theorem nzFlags (r : Byte) : Respects f (nzFlags r) := (hf.setFlag .N _).comp (hf.setFlag .Z _)

theorem writeResultNz (d : RegNum) (r : Byte) : Respects f (writeResultNz d r) := (hf.nzFlags r).comp (hf.writeReg d r)

theorem registerOp (result : Byte → Byte → Byte) {flags : Byte → Byte → Byte → State → State}
    (hflags : ∀ a b r, Respects f (flags a b r)) (d : RegNum) (v : Value2) :
    ResultRespects f (registerOp result flags d v) := by
  intro s
  simp only [Machine.registerOp, hf.v2RegIndex, hf.readReg]
  cases regIndex2 s.v2RegIndex v with
  | error e => rfl
  | ok i => exact ((hflags _ _ _).comp (hf.writeReg d _)).next s

theorem shiftOp (result : Byte → Nat → Byte) (d : RegNum) (v : Value2) : ResultRespects f (shiftOp result d v) := by
  intro s
  simp only [Machine.shiftOp, hf.readReg]
  cases shiftCount v with
  | error e => rfl
  | ok n => exact (hf.writeResultNz d _).next s

theorem execLdr (d : RegNum) (v : Value2) : ResultRespects f (execLdr d v) := by
  intro s
  simp only [Machine.execLdr, hf.memRead]
  cases dataAddress v with
  | error e => rfl
  | ok ea => exact (hf.writeReg d _).next s

theorem execStr (d : RegNum) (v : Value2) : ResultRespects f (execStr d v) := by
  intro s
  simp only [Machine.execStr, hf.readReg]
  cases dataAddress v with
  | error e => rfl
  | ok ea => exact (hf.memWrite ea _).next s

theorem execBr (d : RegNum) (v : Value2) : ResultRespects f (execBr d v) := by
  intro s
  simp only [Machine.execBr, hf.v2RegIndex, hf.readReg]
  cases regIndex2 s.v2RegIndex v with
  | error e => rfl
  | ok i => exact (hf.takeBranch _).next s

theorem reservedNoOp : ResultRespects f reservedNoOp := hf.unchanged.next

theorem execBeqz (d : RegNum) (v : Value2) : ResultRespects f (execBeqz d v) := by
  intro s
  simp only [Machine.execBeqz, hf.readReg, hf.pcView]
  split
  · exact (hf.takeBranch _).next s
  · exact hf.reservedNoOp s

/-- No instruction reads what such an erasure forgets. -/
theorem exec (i : Instr) : ResultRespects f (exec i) := by
  cases i with
  | add d v => exact hf.registerOp addResult hf.addFlags d v
  | sub d v => exact hf.registerOp subResult hf.subFlags d v
  | mul d v => exact hf.registerOp mulResult (fun _ _ => hf.nzFlags) d v
  | eor d v => exact hf.registerOp eorResult (fun _ _ => hf.nzFlags) d v
  | movi d v => exact (hf.writeReg d _).next
  | andi d v =>
    intro s
    simp only [Machine.exec, execAndi, hf.readReg]
    exact (hf.writeResultNz d _).next s
  | sal d v => exact hf.shiftOp salResult d v
  | sar d v => exact hf.shiftOp sarResult d v
  | ldr d v => exact hf.execLdr d v
  | str d v => exact hf.execStr d v
  | beqz d v => exact hf.execBeqz d v
  | br d v => exact hf.execBr d v
  | reserved12 | reserved13 | reserved14 | reserved15 => exact hf.reservedNoOp
  | sentinel => exact hf.vacateL1.next

/-! The tick -/

theorem frontEnd : Respects f frontEnd :=
  have fetched : Respects f fun s =>
      if s.fetchedWord = sentinelWord then s.countTick.vacateL1 else s.countTick.latchFetched :=
    .ite (fun s => by rw [hf.fetchedWord]) (hf.countTick.comp hf.vacateL1) (hf.countTick.comp hf.latchFetched)
  (fetched.comp hf.promote).comp hf.decodeL1

theorem checkTermination : Respects f checkTermination := by
  have asIte := Respects.ite (c := fun s => s.runStatus = .running ∧ s.allLatchesEmpty = true)
    (fun s => by rw [hf.runStatus, hf.allLatchesEmpty]) hf.terminate hf.unchanged
  intro s
  simpa only [checkTermination_eq] using asIte s

/-- The rest of the execute-step depends on the dispatch's outcome only up to the erasure. -/
theorem afterDispatch (s : State) {o o' : Result} (h : mapNext f o' = mapNext f o) :
    mapNext f (afterDispatch (f s) o') = mapNext f (afterDispatch s o) := by
  cases o with
  | next t =>
    cases o' with
    | next t' => exact congrArg Host.Outcome.next ((hf.vacateL4.comp hf.advanceL3).congr (Host.Outcome.next.inj h))
    | fault _ => cases h
    | refused _ => cases h
  | fault e =>
    cases o' with
    | next _ => cases h
    | fault _ => cases h; exact (hf.recordFault e).next s
    | refused _ => cases h
  | refused q =>
    cases o' with
    | next _ => cases h
    | fault _ => cases h
    | refused _ => cases h; rfl

theorem executeStep : ResultRespects f executeStep := by
  intro s
  have erased := hf.instrInL4 s
  cases hr : s.l4.payload with
  | none =>
    rw [hr, Option.map_none, Option.map_eq_none_iff] at erased
    rw [executeStep_of_none erased, executeStep_of_none hr]
    exact hf.advanceL3.next s
  | some r =>
    rw [hr, Option.map_some, Option.map_eq_some_iff] at erased
    obtain ⟨r', hr', same⟩ := erased
    rw [executeStep_of_some hr', executeStep_of_some hr, same]
    exact hf.afterDispatch s (hf.exec r.instr s)

theorem tick : ResultRespects f tick := by
  have inOrder := (hf.frontEnd.compResult hf.executeStep).mapNext hf.checkTermination
  intro s
  simpa only [tick_eq] using inOrder s

/-- No step reads what such an erasure forgets. -/
theorem step : ResultRespects f step := by
  intro s
  have erased := hf.runStatus s
  cases hs : s.runStatus with
  | running => rw [step_of_running (erased.trans hs), step_of_running hs]; exact hf.tick s
  | terminated =>
    rw [step_of_terminated (erased.trans hs), step_of_terminated hs]
    exact hf.unchanged.next s
  | faulted e => rw [step_of_faulted (erased.trans hs), step_of_faulted hs]

end ErasesUnread

/-! ### The two erasures -/

/-- The status register is read by nothing (R25). -/
theorem eraseFlags_erasesUnread : ErasesUnread eraseFlags where
  idem _ := rfl
  readReg _ _ := rfl
  memRead _ _ := rfl
  pcView _ := rfl
  fetchedWord _ := rfl
  v2RegIndex _ := rfl
  runStatus _ := rfl
  allLatchesEmpty _ := rfl
  instrInL4 _ := rfl
  writeReg _ _ _ := rfl
  setFlag _ _ _ := rfl
  memWrite _ _ _ := rfl
  takeBranch _ _ := rfl
  countTick _ := rfl
  vacateL1 _ := rfl
  latchFetched _ := rfl
  promote s := by unfold State.promote; cases h : s.l2.payload <;> simp [eraseFlags, h]
  decodeL1 s := by unfold State.decodeL1; cases h : s.l1.payload <;> simp [eraseFlags, h]
  vacateL4 s := by unfold State.vacateL4; cases h : s.l4.payload <;> simp [eraseFlags, h]
  advanceL3 s := by
    unfold State.advanceL3 State.vacateL4
    cases h : s.l3.payload <;> cases h4 : s.l4.payload <;> simp [eraseFlags, h, h4]
  recordFault _ _ := rfl
  terminate _ := rfl

/-- Erasing the type tag of a record does not change what it dispatches as (R87, R110). -/
@[simp] theorem instr_untypeRecord (r : DecodedRecord) : (untypeRecord r).instr = r.instr := rfl

@[simp] theorem untypeRecord_untypeRecord (r : DecodedRecord) : untypeRecord (untypeRecord r) = untypeRecord r := rfl

@[simp] theorem untagLatch_payload {α : Type} (l : Latch α) : (untagLatch l).payload = l.payload := rfl

@[simp] theorem untagLatch_untagLatch {α : Type} (l : Latch α) : untagLatch (untagLatch l) = untagLatch l := rfl

@[simp] theorem untagRecord_payload (l : Latch DecodedRecord) :
    (untagRecord l).payload = l.payload.map untypeRecord := rfl

@[simp] theorem untagRecord_untagRecord (l : Latch DecodedRecord) : untagRecord (untagRecord l) = untagRecord l := by
  simp [untagRecord, Function.comp_def]

@[simp] theorem untagRecord_occupiedLatch (r : DecodedRecord) (tag : Byte) :
    untagRecord (occupiedLatch r tag) = occupiedLatch (untypeRecord r) 0 := rfl

@[simp] theorem eraseUnread_eraseUnread (s : State) : eraseUnread (eraseUnread s) = eraseUnread s := by
  simp [eraseUnread]

/-- An update that an idempotent erasure commutes with respects it. -/
theorem Respects.of_commutes {f g : State → State} (idem : ∀ s, f (f s) = f s) (h : ∀ s, g (f s) = f (g s)) :
    Respects f g := fun s => by rw [h, idem]

/-- PC bits 15:8, the pc-tags and the type tags are read by nothing (R29, R30, R87). -/
theorem eraseUnread_erasesUnread : ErasesUnread eraseUnread where
  idem := eraseUnread_eraseUnread
  readReg _ _ := rfl
  memRead _ _ := rfl
  pcView _ := rfl
  fetchedWord _ := rfl
  v2RegIndex _ := rfl
  runStatus _ := rfl
  allLatchesEmpty s := by simp [State.allLatchesEmpty, eraseUnread]
  instrInL4 s := by simp [eraseUnread, Function.comp_def]
  writeReg _ _ := .of_commutes eraseUnread_eraseUnread fun _ => rfl
  setFlag _ _ := .of_commutes eraseUnread_eraseUnread fun _ => rfl
  memWrite _ _ := .of_commutes eraseUnread_eraseUnread fun _ => rfl
  takeBranch _ _ := rfl
  countTick := .of_commutes eraseUnread_eraseUnread fun _ => rfl
  vacateL1 s := by simp [eraseUnread, State.vacateL1]
  latchFetched s := by simp [eraseUnread, State.latchFetched, State.incrementPc]; rfl
  promote s := by unfold State.promote; cases h : s.l2.payload <;> simp [eraseUnread, State.vacateL2, h]
  decodeL1 s := by unfold State.decodeL1; cases h : s.l1.payload <;> simp [eraseUnread, h]
  vacateL4 s := by unfold State.vacateL4; cases h : s.l4.payload <;> simp [eraseUnread, h]
  advanceL3 s := by
    unfold State.advanceL3 State.vacateL4
    cases h : s.l3.payload <;> cases h4 : s.l4.payload <;> simp [eraseUnread, State.vacateL3, h, h4]
  recordFault _ := .of_commutes eraseUnread_eraseUnread fun _ => rfl
  terminate := .of_commutes eraseUnread_eraseUnread fun _ => rfl

/-! ### The obligations -/

/-- Settles O38: forgetting the status register is an erasure of unread state. -/
theorem flagsAreNeverRead : Obligations.FlagsAreNeverRead := by
  intro s x
  have reads := eraseFlags_erasesUnread.step
  calc mapNext eraseFlags (step { s with sr := x })
      = mapNext eraseFlags (step (eraseFlags { s with sr := x })) := (reads _).symm
    _ = mapNext eraseFlags (step (eraseFlags s)) := rfl
    _ = mapNext eraseFlags (step s) := reads s

/-- Settles O39: so is forgetting PC bits 15:8, the pc-tags and the type tags. -/
theorem unreadStateIsNeverRead : Obligations.UnreadStateIsNeverRead := eraseUnread_erasesUnread.step

/-- ADD's Overflow formula on the wrapped sum: true overflow but for -128 + -128, whose wrapped sum 0 is not above 0 (R44). -/
theorem overflowAddOf_addResult (a b : Byte) :
    overflowAddOf a b (addResult a b) = true ↔
      (a.toInt + b.toInt < -128 ∨ a.toInt + b.toInt > 127) ∧ ¬(a.toInt = -128 ∧ b.toInt = -128) := by
  have ha := a.toInt_lt
  have ha' := a.le_toInt
  have hb := b.toInt_lt
  have hb' := b.le_toInt
  simp only [overflowAddOf, addResult, wrap8_toInt, Bool.or_eq_true, Bool.and_eq_true, decide_eq_true_eq]
  omega

/-- SUB's Overflow formula on the wrapped difference: true overflow but for 0 - -128, whose first operand is not above 0
(R45). -/
theorem overflowSubOf_subResult (a b : Byte) :
    overflowSubOf a b (subResult a b) = true ↔
      (a.toInt - b.toInt < -128 ∨ a.toInt - b.toInt > 127) ∧ ¬(a.toInt = 0 ∧ b.toInt = -128) := by
  have ha := a.toInt_lt
  have ha' := a.le_toInt
  have hb := b.toInt_lt
  have hb' := b.le_toInt
  simp only [overflowSubOf, subResult, wrap8_toInt, Bool.or_eq_true, Bool.and_eq_true, decide_eq_true_eq]
  omega

/-- Settles O12. -/
theorem overflowMissesOneCase : Obligations.OverflowMissesOneCase := fun a b =>
  ⟨overflowAddOf_addResult a b, overflowSubOf_subResult a b⟩

/-- Settles O35: of the effects an instruction can have, only the one of `destReg` changes a register. -/
theorem registersChangeOnlyByTheList : Obligations.RegistersChangeOnlyByTheList := by
  intro i s t r h changed
  cases exec_effect h with
  | register d dest writes =>
    obtain ⟨x, v, -, rfl⟩ := writes
    have hd : d = r := by
      by_contra hne
      exact changed (by rw [readReg_writeReg, if_neg hne]; rfl)
    exact instr_of_destReg (hd ▸ dest)
  | store _ _ _ _ _ stores => exact absurd (by rw [stores]; rfl) changed
  | branch _ _ takes => exact absurd (by rw [takes]; rfl) changed
  | nothing same => exact absurd (by rw [same]) changed
  | sentinel _ empties => exact absurd (by rw [empties]; rfl) changed

/-- Settles O36: of the effects an instruction can have, only a taken branch changes the PC, L2, L3 or L4. -/
theorem onlyTakenBranchesMoveThePc : Obligations.OnlyTakenBranchesMoveThePc := by
  intro i s t h notSentinel
  cases exec_effect h with
  | register _ _ writes =>
    obtain ⟨x, v, -, rfl⟩ := writes
    exact ⟨rfl, .inl ⟨rfl, rfl, rfl, rfl⟩⟩
  | store _ _ _ _ _ stores => subst stores; exact ⟨rfl, .inl ⟨rfl, rfl, rfl, rfl⟩⟩
  | branch _ isTaken takes => subst takes; exact ⟨rfl, .inr (instr_of_takesBranch isTaken)⟩
  | nothing same => subst same; exact ⟨rfl, .inl ⟨rfl, rfl, rfl, rfl⟩⟩
  | sentinel isSentinel _ => exact absurd isSentinel notSentinel

/-- No step writes status bits 5 to 7 (R51). -/
theorem step_sr_high {s t : State} (h : step s = .next t) {k : Nat} (hk : 5 ≤ k) :
    t.sr.getLsbD k = s.sr.getLsbD k := by
  obtain ⟨-, ticked⟩ | ⟨-, rfl⟩ := step_next h
  · obtain ⟨u, hu, rfl⟩ := tick_next ticked
    calc (checkTermination u).sr.getLsbD k = u.sr.getLsbD k := by rw [checkTermination_sr]
      _ = (frontEnd s).sr.getLsbD k := executeStep_sr_high hu hk
      _ = s.sr.getLsbD k := by rw [frontEnd_sr]
  · rfl

/-- Settles O37. -/
theorem statusBitsFiveToSevenStayClear : Obligations.StatusBitsFiveToSevenStayClear :=
  ⟨fun _ _ _ => BitVec.getLsbD_zero, fun _ _ h _ hk _ => step_sr_high h hk⟩

/-- Settles O50. -/
theorem stoppedRunsDoNotTick : Obligations.StoppedRunsDoNotTick := fun _ =>
  ⟨step_of_terminated, fun _ => step_of_faulted⟩

/-- Settles O55: at reset the memories list no cell, the status register is 0 and every latch is Empty. -/
theorem invariantAtReset : Obligations.InvariantAtReset where
  memory := reset_wf
  reserved _ _ := BitVec.getLsbD_zero
  high _ _ := rfl
  fetched _ h := by cases h
  decoded _ h := by cases h
  staged _ := rfl
  records := ⟨fun _ h => (by cases h), fun _ h => (by cases h)⟩
  ended h := by cases h

end Sys2Proof.Machine

/-! PROOFS. The memories (20_memory.md): the address rule, the canonical form, and what a step leaves of the cells. -/

namespace Sys2Proof.Machine

open Sys2Proof

/-! ### The data address and the two instructions that use it -/

/-- `dataAddress` forms an address from every value2 of 0 or more (R153). -/
theorem dataAddress_of_nonneg {v : Value2} (h : 0 ≤ value2Int v) : ∃ ea, dataAddress v = .ok ea := by
  cases ha : dataAddress v with
  | ok ea => exact ⟨ea, rfl⟩
  | error e => exact absurd (dataAddress_error ha).1 (not_lt.mpr h)

/-- Below 0 it raises the model fault (R153, D7). -/
theorem dataAddress_of_neg {v : Value2} (h : value2Int v < 0) : dataAddress v = .error .dataAddressNegative := by
  cases ha : dataAddress v with
  | ok ea =>
    have atValue := (dataAddress_ok ha).1
    omega
  | error e => rw [(dataAddress_error ha).2]

/-- LDR at an address that is formed (R151). -/
theorem exec_ldr_of_ok {v : Value2} {ea : DmAddr} (h : dataAddress v = .ok ea) (d : RegNum) (s : State) :
    exec (.ldr d v) s = .next (s.writeReg d (s.memRead ea)) := by
  change execLdr d v s = _
  rw [execLdr, h]

/-- LDR with no address. -/
theorem exec_ldr_of_error {v : Value2} {e : Fault} (h : dataAddress v = .error e) (d : RegNum) (s : State) :
    exec (.ldr d v) s = .fault e := by
  change execLdr d v s = _
  rw [execLdr, h]

/-- STR with no address. -/
theorem exec_str_of_error {v : Value2} {e : Fault} (h : dataAddress v = .error e) (d : RegNum) (s : State) :
    exec (.str d v) s = .fault e := by
  change execStr d v s = _
  rw [execStr, h]

/-! ### A canonical list is determined by what it reads as -/

section Canonical

variable {w size lo k : Nat} {u x : BitVec w} {m m' : Cells w}

/-- The canonical form of a list with a first entry. -/
theorem Cells.wfFrom_cons :
    Cells.wfFrom u size lo ((k, x) :: m) = true ↔
      lo ≤ k ∧ k < size ∧ x ≠ u ∧ Cells.wfFrom u size (k + 1) m = true := by
  simp [Cells.wfFrom, and_assoc]

theorem Cells.read_cons_same : Cells.read u ((k, x) :: m) k = x := if_pos rfl

theorem Cells.read_cons_of_lt {a : Nat} (h : k < a) : Cells.read u ((k, x) :: m) a = Cells.read u m a :=
  if_neg (Nat.ne_of_lt h)

/-- Below the bound of its canonical form a list has no entry. -/
theorem Cells.read_of_lt (h : Cells.wfFrom u size lo m = true) {a : Nat} (ha : a < lo) : Cells.read u m a = u := by
  induction m generalizing lo with
  | nil => rfl
  | cons c m ih =>
    obtain ⟨k, x⟩ := c
    obtain ⟨hk, -, -, tail⟩ := Cells.wfFrom_cons.mp h
    calc Cells.read u ((k, x) :: m) a = Cells.read u m a := if_neg (by omega)
      _ = u := ih tail (by omega)

/-- A canonical list has its first entry no lower than the bound of any list that reads the same: below that bound the other
list reads as unlisted, and an entry never does. -/
theorem Cells.le_head_of_read_eq (h : Cells.wfFrom u size k ((k, x) :: m) = true)
    (h' : Cells.wfFrom u size lo m' = true)
    (same : ∀ a, a < size → Cells.read u ((k, x) :: m) a = Cells.read u m' a) : lo ≤ k := by
  obtain ⟨-, inside, listed, -⟩ := Cells.wfFrom_cons.mp h
  by_contra below
  apply listed
  calc x = Cells.read u ((k, x) :: m) k := Cells.read_cons_same.symm
    _ = Cells.read u m' k := same k inside
    _ = u := Cells.read_of_lt h' (by omega)

/-- Canonical lists with the same reads inside the memory are equal: their first entries are, and so are their rests. -/
theorem Cells.eq_of_read_eq (h : Cells.wfFrom u size lo m = true) (h' : Cells.wfFrom u size lo m' = true)
    (same : ∀ a, a < size → Cells.read u m a = Cells.read u m' a) : m = m' := by
  induction m generalizing lo m' with
  | nil =>
    cases m' with
    | nil => rfl
    | cons c' m' =>
      obtain ⟨-, inside, listed, -⟩ := Cells.wfFrom_cons.mp h'
      exact absurd ((same _ inside).trans Cells.read_cons_same).symm listed
  | cons c m ih =>
    obtain ⟨k, x⟩ := c
    obtain ⟨-, inside, listed, tail⟩ := Cells.wfFrom_cons.mp h
    cases m' with
    | nil => exact absurd (Cells.read_cons_same.symm.trans (same k inside)) listed
    | cons c' m' =>
      obtain ⟨k', x'⟩ := c'
      obtain ⟨-, inside', listed', tail'⟩ := Cells.wfFrom_cons.mp h'
      have rebased := Cells.wfFrom_cons.mpr ⟨le_refl k, inside, listed, tail⟩
      have rebased' := Cells.wfFrom_cons.mpr ⟨le_refl k', inside', listed', tail'⟩
      obtain rfl : k = k' := le_antisymm (Cells.le_head_of_read_eq rebased' rebased fun a ha => (same a ha).symm)
        (Cells.le_head_of_read_eq rebased rebased' same)
      obtain rfl : x = x' := by simpa only [Cells.read_cons_same] using same k inside
      have rest : m = m' := ih tail tail' fun a ha => by
        by_cases above : k < a
        · simpa only [Cells.read_cons_of_lt above] using same a ha
        · rw [Cells.read_of_lt tail (by omega), Cells.read_of_lt tail' (by omega)]
      rw [rest]

end Canonical

/-! ### The parts of a tick that leave both memories as they are -/

@[simp] theorem decodeStep_im (s : State) : (decodeStep s).im = s.im := by rw [decodeStep_frame]

@[simp] theorem decodeStep_dm (s : State) : (decodeStep s).dm = s.dm := by rw [decodeStep_frame]

@[simp] theorem advanceL3_im (s : State) : s.advanceL3.im = s.im := by rw [advanceL3_frame]

@[simp] theorem advanceL3_dm (s : State) : s.advanceL3.dm = s.dm := by rw [advanceL3_frame]

@[simp] theorem checkTermination_im (s : State) : (checkTermination s).im = s.im := by
  rw [checkTermination_eq]; split <;> rfl

@[simp] theorem checkTermination_dm (s : State) : (checkTermination s).dm = s.dm := by
  rw [checkTermination_eq]; split <;> rfl

@[simp] theorem frontEnd_im (s : State) : (frontEnd s).im = s.im := by
  unfold frontEnd; rw [decodeStep_im]; split <;> rfl

@[simp] theorem frontEnd_dm (s : State) : (frontEnd s).dm = s.dm := by
  unfold frontEnd; rw [decodeStep_dm]; split <;> rfl

/-! ### What every instruction leaves of the memories, every step leaves -/

section MemoryView

variable {α : Type} {f : State → α}

/-- `f` reads nothing of the state but its two memories. -/
def ReadsMemories (f : State → α) : Prop := ∀ s t : State, t.im = s.im → t.dm = s.dm → f t = f s

theorem executeStep_keeps (reads : ReadsMemories f) (kept : ∀ i s t, exec i s = .next t → f t = f s) {s t : State}
    (h : executeStep s = .next t) : f t = f s := by
  obtain ⟨-, rfl⟩ | ⟨r, u, -, dispatched, rfl⟩ | ⟨r, e, -, -, rfl⟩ := executeStep_next h
  · exact reads _ _ (advanceL3_im s) (advanceL3_dm s)
  · calc f u.vacateL4.advanceL3 = f u := reads _ _ (by simp) (by simp)
      _ = f s := kept _ _ _ dispatched
  · exact reads _ _ rfl rfl

/-- The dispatch is the only part of a step that may write a memory (R73). -/
theorem step_keeps (reads : ReadsMemories f) (kept : ∀ i s t, exec i s = .next t → f t = f s) {s t : State}
    (h : step s = .next t) : f t = f s := by
  obtain ⟨-, ticked⟩ | ⟨-, rfl⟩ := step_next h
  · obtain ⟨u, executed, rfl⟩ := tick_next ticked
    calc f (checkTermination u) = f u := reads _ _ (checkTermination_im u) (checkTermination_dm u)
      _ = f (frontEnd s) := executeStep_keeps reads kept executed
      _ = f s := reads _ _ (frontEnd_im s) (frontEnd_dm s)
  · rfl

end MemoryView

/-- No instruction writes instruction memory (R62). -/
theorem exec_im {i : Instr} {s t : State} (h : exec i s = .next t) : t.im = s.im := by
  cases exec_effect h with
  | register _ _ writes =>
    obtain ⟨x, v, -, rfl⟩ := writes
    rfl
  | store _ _ _ _ _ stores => rw [stores]; rfl
  | branch _ _ takes => rw [takes]; rfl
  | nothing same => rw [same]
  | sentinel _ empties => rw [empties]; rfl

/-- No instruction writes a data-memory cell from 32 up: a store's address is below (R66). -/
theorem exec_memRead_high {i : Instr} {s t : State} (h : exec i s = .next t) {a : DmAddr} (ha : 32 ≤ a.val) :
    t.memRead a = s.memRead a := by
  cases exec_effect h with
  | register _ _ writes =>
    obtain ⟨x, v, -, rfl⟩ := writes
    rfl
  | store d v ea _ low stores =>
    have elsewhere : ea ≠ a := fun e => absurd (e ▸ low) (not_lt.mpr ha)
    rw [stores, memRead_memWrite, if_neg elsewhere]
  | branch _ _ takes => rw [takes]; rfl
  | nothing same => rw [same]
  | sentinel _ empties => rw [empties]; rfl

/-- The reads of instruction memory depend on its list of cells only. -/
theorem codeSame_of_im {s t : State} (h : t.im = s.im) : CodeSame s t := fun a => by
  unfold State.ifetch; rw [h]

/-- The read of a data-memory cell depends on the memories only. -/
theorem memRead_readsMemories (a : DmAddr) : ReadsMemories (·.memRead a) := fun s t _ hd => by
  change Cells.read _ t.dm _ = Cells.read _ s.dm _
  rw [hd]

/-! ### The obligations -/

/-- Settles O22. -/
theorem addressingRule : Obligations.AddressingRule := by
  intro v
  constructor
  · intro nonneg
    obtain ⟨ea, formed⟩ := dataAddress_of_nonneg nonneg
    obtain ⟨atValue, low⟩ := dataAddress_ok formed
    exact ⟨ea, formed, atValue, Nat.le_of_lt_succ low⟩
  · intro neg
    have faults := dataAddress_of_neg neg
    exact ⟨faults, fun d s => ⟨exec_ldr_of_error faults d s, exec_str_of_error faults d s⟩⟩

/-- Settles O23: the store's completion says that the address is formed, and the load reads the cell just written. -/
theorem loadAfterStoreReadsTheStore : Obligations.LoadAfterStoreReadsTheStore := by
  intro d e v s t stored
  obtain ⟨ea, formed, rfl⟩ := execStr_next stored
  exact ⟨_, exec_ldr_of_ok formed e _, by rw [readReg_writeReg, if_pos rfl, memRead_memWrite, if_pos rfl]⟩

/-- Settles O24, for each of the two memories. -/
theorem canonicalMemoriesAreEqual : Obligations.CanonicalMemoriesAreEqual := by
  intro s t hs ht sameCode sameData
  obtain ⟨him, hdm⟩ := Bool.and_eq_true_iff.mp hs
  obtain ⟨him', hdm'⟩ := Bool.and_eq_true_iff.mp ht
  exact ⟨Cells.eq_of_read_eq him him' fun a ha => sameCode ⟨a, ha⟩,
    Cells.eq_of_read_eq hdm hdm' fun a ha => sameData ⟨a, ha⟩⟩

/-- Settles O25: the list of cells of instruction memory stays the same list. -/
theorem instructionMemoryIsNeverWritten : Obligations.InstructionMemoryIsNeverWritten :=
  ⟨fun _ _ _ h => codeSame_of_im (exec_im h),
    fun _ _ h => codeSame_of_im (step_keeps (f := State.im) (fun _ _ him _ => him) (fun _ _ _ => exec_im) h)⟩

/-- Settles O26. -/
theorem dataMemoryAboveThirtyOneIsNeverWritten : Obligations.DataMemoryAboveThirtyOneIsNeverWritten :=
  fun _ _ h a ha => step_keeps (memRead_readsMemories a) (fun _ _ _ executed => exec_memRead_high executed ha) h

end Sys2Proof.Machine

/-! PROOFS. The encoding (30_encoding.md): the decoder and the encoder are inverse to each other, the fields as numbers, and
the words of the assembler's lines. -/

namespace Sys2Proof.Machine

open Sys2Proof

/-! ### The fields of a word -/

/-- The three fields of a word, packed again, are the word (R81): no bit is dropped. -/
theorem packWord_fields (w : Word) : packWord (opcodeField w) (operand1Field w) (value2Field w) = w := by
  change (w.extractLsb' 12 4 ++ w.extractLsb' 6 6) ++ w.extractLsb' 0 6 = w
  rw [BitVec.extractLsb'_append_extractLsb'_eq_extractLsb' (by rfl)]
  exact BitVec.extractLsb'_append_extractLsb' (len := 6) (x := w)

/-- The record of a packed word has the fields that were packed, and the opcode's type (R82, R86). -/
theorem decodeRecord_packWord (op : Opcode) (d : RegNum) (v : Value2) :
    decodeRecord (packWord op d v) = ⟨op, d, v, typeOf op⟩ := by
  simp [decodeRecord]

/-- Bits 15:12 as a number (R81). -/
theorem opcodeField_toNat (w : Word) : (opcodeField w).toNat = w.toNat / 4096 := by
  have bound := w.isLt
  simp only [opcodeField, BitVec.extractLsb'_toNat, Nat.shiftRight_eq_div_pow]
  omega

/-- Bits 11:6 as a number (R84). -/
theorem operand1Field_val (w : Word) : (operand1Field w).val = w.toNat / 64 % 64 := by
  simp only [operand1Field, BitVec.val_toFin, BitVec.extractLsb'_toNat, Nat.shiftRight_eq_div_pow]

/-- Bits 5:0 as a number without sign. -/
theorem value2Field_toNat (w : Word) : (value2Field w).toNat = w.toNat % 64 := by
  simp [value2Field]

/-- The sign of value2 is bit 5 of the word (R83). -/
theorem value2Field_msb (w : Word) : (value2Field w).msb = w.getLsbD 5 := by
  simp [value2Field, BitVec.msb_eq_getLsbD_last]

/-- value2 as the spec reads it: the low six bits in two's complement (R83). -/
theorem value2Int_value2Field (w : Word) :
    value2Int (value2Field w) =
      if w.getLsbD 5 = true then (w.toNat % 64 : Int) - 64 else (w.toNat % 64 : Int) := by
  rw [value2Int, BitVec.toInt_eq_msb_cond, value2Field_msb, value2Field_toNat]
  rfl

/-- The type tag by the list of R86. -/
theorem typeOf_eq (op : Opcode) :
    typeOf op = if op.toNat ∈ [3, 4, 5, 8, 9, 10, 11] then InstrType.I else InstrType.R := by
  revert op; decide

/-- `value2 mod 64` is the field itself (R97). -/
theorem value2Int_emod (v : Value2) : (value2Int v % 64).toNat = v.toNat := by
  have bound := v.isLt
  rw [value2Int, BitVec.toInt_eq_toNat_cond]
  split <;> omega

/-- A packed word as a number: the packing of R97. -/
theorem packWord_toNat (op : Opcode) (d : RegNum) (v : Value2) :
    (packWord op d v).toNat = op.toNat <<< 12 ||| d.val <<< 6 ||| (value2Int v % 64).toNat := by
  simp only [packWord, BitVec.toNat_append, BitVec.toNat_ofFin, Nat.shiftLeft_or_distrib, ← Nat.shiftLeft_add, value2Int_emod]

/-! ### The sentinel word among the packed words -/

/-- The sentinel word is the fields of R90, packed: opcode 15 with the sentinel's pattern. -/
theorem packWord_eq_sentinelWord_iff {op : Opcode} {d : RegNum} {v : Value2} :
    packWord op d v = sentinelWord ↔ op = 15 ∧ isSentinelPattern d v = true := by
  have pattern : isSentinelPattern d v = true ↔ d = 63 ∧ v = BitVec.allOnes 6 := by simp [isSentinelPattern]
  rw [pattern]
  constructor
  · intro h
    have hop := opcodeField_packWord op d v
    have hd := operand1Field_packWord op d v
    have hv := value2Field_packWord op d v
    rw [h] at hop hd hv
    exact ⟨hop.symm, hd.symm, hv.symm⟩
  · rintro ⟨rfl, rfl, rfl⟩
    rfl

/-! ### Instructions by their opcode -/

/-- Every instruction but the sentinel is the one its opcode selects, with its operands (R88). -/
theorem eq_sentinel_or_instrOf (i : Instr) : i = .sentinel ∨ ∃ d v, i = instrOf (Laws.opcodeNumber i) d v := by
  cases i with
  | sentinel => exact .inl rfl
  | _ => exact .inr ⟨_, _, rfl⟩

/-- The word of the instruction an opcode selects is that opcode packed with the operands (R97). -/
theorem encode_instrOf (op : Opcode) (d : RegNum) (v : Value2) : encode (instrOf op d v) = packWord op d v := by
  cases op with
  | ofFin n => fin_cases n <;> rfl

/-- It is well formed unless its word is the sentinel (R90). -/
theorem instrOf_wellFormed_iff (op : Opcode) (d : RegNum) (v : Value2) :
    (instrOf op d v).wellFormed = true ↔ packWord op d v ≠ sentinelWord := by
  have closed : (instrOf op d v).wellFormed = !(op == 15 && isSentinelPattern d v) := by
    cases op with
    | ofFin n => fin_cases n <;> rfl
  rw [closed, ne_eq, packWord_eq_sentinelWord_iff]
  simp [imp_iff_not_or]

/-- A packed word other than the sentinel decodes by its opcode (R88, R90). -/
theorem decode_packWord {op : Opcode} {d : RegNum} {v : Value2} (h : packWord op d v ≠ sentinelWord) :
    decode (packWord op d v) = instrOf op d v := by
  rw [decode, if_neg h, decodeRecord_packWord, DecodedRecord.instr]

/-! ### The assembler's lines -/

/-- No mnemonic exists for opcode 15, so no line gives the sentinel word (R94). -/
theorem packWord_mnemonicOpcode_ne_sentinelWord (m : Mnemonic) (d : RegNum) (v : Value2) :
    packWord (mnemonicOpcode m) d v ≠ sentinelWord := by
  intro h
  have reserved := (packWord_eq_sentinelWord_iff.mp h).1
  cases m <;> exact absurd reserved (by decide)

/-- The type of a mnemonic is the type of its opcode (R86, R94). -/
theorem typeOf_mnemonicOpcode (m : Mnemonic) : typeOf (mnemonicOpcode m) = m.type := by
  cases m <;> rfl

/-- An accepted first operand is the register of its field (R93, R95). -/
theorem eq_reg_operandRegister {l : AsmLine} (h : l.operand1Ok = true) :
    l.operand1 = .reg (operandRegister l.operand1).val := by
  unfold AsmLine.operand1Ok at h
  split at h
  next n written =>
    rw [written, operandRegister, Fin.val_ofNat, Nat.mod_eq_of_lt (of_decide_eq_true h)]
  next => contradiction

/-- An accepted second operand is the register or the decimal of its field (R93, R95). -/
theorem eq_reg_or_dec_operandField {l : AsmLine} (h : l.operand2Ok = true) :
    l.operand2 = .reg (operandField l.operand2).toNat ∨ l.operand2 = .dec (value2Int (operandField l.operand2)) := by
  unfold AsmLine.operand2Ok at h
  split at h
  next n _ written =>
    left
    rw [written, operandField, BitVec.toNat_ofNat, Nat.mod_eq_of_lt (of_decide_eq_true h)]
  next k _ written =>
    right
    obtain ⟨low, high⟩ := Bool.and_eq_true_iff.mp h
    have low := of_decide_eq_true low
    have high := of_decide_eq_true high
    rw [written, operandField, value2Int, BitVec.toInt_ofInt_eq_self (by decide) (by omega) (by omega)]
  all_goals contradiction

/-! ### The obligations -/

/-- Settles O1: a well-formed instruction is the sentinel or what an opcode selects, and then its word is not the sentinel. -/
theorem decodeOfEncodeIsTheInstruction : Obligations.DecodeOfEncodeIsTheInstruction := by
  intro i wellFormed
  obtain rfl | ⟨d, v, selected⟩ := eq_sentinel_or_instrOf i
  · rfl
  · rw [selected] at wellFormed ⊢
    rw [encode_instrOf, decode_packWord ((instrOf_wellFormed_iff _ d v).mp wellFormed)]

/-- Settles O2: a word other than the sentinel is its own fields, packed. -/
theorem encodeOfDecodeIsTheWord : Obligations.EncodeOfDecodeIsTheWord := by
  intro w
  by_cases isSentinel : w = sentinelWord
  · subst isSentinel
    exact ⟨rfl, rfl⟩
  · rw [← packWord_fields w] at isSentinel ⊢
    rw [decode_packWord isSentinel]
    exact ⟨(instrOf_wellFormed_iff _ _ _).mpr isSentinel, encode_instrOf _ _ _⟩

/-- Settles O3, field by field. -/
theorem decoderReadsTheFields : Obligations.DecoderReadsTheFields := fun w =>
  ⟨value2Int_value2Field w, le_value2Int _, Int.le_of_lt_add_one (value2Int_lt _), opcodeField_toNat w, operand1Field_val w,
    typeOf_eq _⟩

/-- Settles O4: the word is the packed one, whose value and record are known. -/
theorem encoderPacksTheFields : Obligations.EncoderPacksTheFields := by
  refine ⟨fun op d v _ => ?_, rfl⟩
  rw [encode_instrOf, decodeRecord_packWord]
  exact ⟨packWord_toNat op d v, rfl, rfl, rfl, rfl⟩

/-- Settles O6: the fields of the word are the line's opcode, register and operand, which an accepted line writes in range. -/
theorem assemblerLinesBecomeTheirWords : Obligations.AssemblerLinesBecomeTheirWords := by
  intro l
  constructor
  · intro refused
    rw [assembleLine, refused]
    rfl
  · intro accepted
    obtain ⟨operand1Ok, operand2Ok⟩ := Bool.and_eq_true_iff.mp accepted
    exact ⟨_, operandRegister l.operand1, operandField l.operand2, if_pos accepted,
      packWord_mnemonicOpcode_ne_sentinelWord _ _ _, by rw [decodeRecord_packWord, typeOf_mnemonicOpcode],
      eq_reg_operandRegister operand1Ok, eq_reg_or_dec_operandField operand2Ok⟩

/-- Settles O5, word by word. -/
theorem exampleWordsDecode : Obligations.ExampleWordsDecode := by
  unfold Obligations.ExampleWordsDecode
  decide

end Sys2Proof.Machine

/-! PROOFS. The pipeline (40_pipeline.md): what each step of a tick does, what a whole tick can do, and the invariant. -/

namespace Sys2Proof.Machine

open Sys2Proof

/-! ### The fetch-step -/

/-- The two bytes together count as one 16-bit number (R28). -/
theorem incrementPc_pc (s : State) : s.incrementPc.pc = s.pc + 1 := by
  have low := s.pcLow.isLt
  have high := s.pcHigh.isLt
  apply BitVec.eq_of_toNat_eq
  have bytes (h l : Byte) : (h ++ l).toNat = h.toNat * 256 + l.toNat := by
    rw [BitVec.toNat_append, ← Nat.shiftLeft_add_eq_or_of_lt l.isLt, Nat.shiftLeft_eq]
  simp only [State.pc, incrementPc_pcHigh, incrementPc_pcLow, BitVec.toNat_add, bytes]
  by_cases carry : s.pcLow = 0xFF
  · simp [carry]; omega
  · have below : s.pcLow.toNat ≠ 255 := fun h => carry (BitVec.eq_of_toNat_eq h)
    rw [if_neg carry]; simp; omega

theorem fetchStep_of_sentinel {s : State} (h : s.fetchedWord = sentinelWord) : fetchStep s = .next s.vacateL1 := by
  rw [fetchStep_eq, if_pos h]

theorem fetchStep_of_ne {s : State} (h : s.fetchedWord ≠ sentinelWord) : fetchStep s = .next s.latchFetched := by
  rw [fetchStep_eq, if_neg h]

/-! ### The decode-step -/

theorem promote_of_some {s : State} {r : DecodedRecord} (h : s.l2.payload = some r) :
    s.promote = { s with l3 := occupiedLatch r s.l2.pcTag }.vacateL2 := by
  unfold State.promote; rw [h]

theorem promote_of_none {s : State} (h : s.l2.payload = none) : s.promote = s := by
  unfold State.promote; rw [h]

/-- The promotion leaves L2 Empty, or finds it so. -/
theorem promote_l2_payload (s : State) : s.promote.l2.payload = none := by
  cases h : s.l2.payload with
  | some r => rw [promote_of_some h]; rfl
  | none => rw [promote_of_none h, h]

@[simp] theorem promote_l1 (s : State) : s.promote.l1 = s.l1 := by
  unfold State.promote; split <;> rfl

theorem decodeL1_of_some {s : State} {w : Word} (h : s.l1.payload = some w) :
    s.decodeL1 = { s with l2 := occupiedLatch (decodeRecord w) s.l1.pcTag } := by
  unfold State.decodeL1; rw [h]

theorem decodeL1_of_none {s : State} (h : s.l1.payload = none) : s.decodeL1 = s := by
  unfold State.decodeL1; rw [h]

@[simp] theorem decodeL1_l3 (s : State) : s.decodeL1.l3 = s.l3 := by
  unfold State.decodeL1; split <;> rfl

/-- L3 after the decode-step, where L2 was Occupied (R105). -/
theorem decodeStep_l3_of_some {s : State} {r : DecodedRecord} (h : s.l2.payload = some r) :
    (decodeStep s).l3 = ⟨some r, s.l2.pcTag⟩ := by
  rw [decodeStep, decodeL1_l3, promote_of_some h]; rfl

/-- L3 after the decode-step, where L2 was Empty (R105). -/
theorem decodeStep_l3_of_none {s : State} (h : s.l2.payload = none) : (decodeStep s).l3 = s.l3 := by
  rw [decodeStep, decodeL1_l3, promote_of_none h]

/-- L2 after the decode-step, where L1 was Occupied (R106). -/
theorem decodeStep_l2_of_some {s : State} {w : Word} (h : s.l1.payload = some w) :
    (decodeStep s).l2 = ⟨some (decodeRecord w), s.l1.pcTag⟩ := by
  rw [decodeStep, decodeL1_of_some (by rw [promote_l1, h]), promote_l1]; rfl

/-- L2 after the decode-step, where L1 was Empty (R106). -/
theorem decodeStep_l2_of_none {s : State} (h : s.l1.payload = none) : (decodeStep s).l2.payload = none := by
  rw [decodeStep, decodeL1_of_none (by rw [promote_l1, h]), promote_l2_payload]

@[simp] theorem decodeStep_l1 (s : State) : (decodeStep s).l1 = s.l1 := by rw [decodeStep_frame]

@[simp] theorem decodeStep_pcView (s : State) : (decodeStep s).pcView = s.pcView := by rw [decodeStep_frame]; rfl

/-! ### The front end of a tick -/

theorem frontEnd_of_sentinel {s : State} (h : s.fetchedWord = sentinelWord) :
    frontEnd s = decodeStep s.countTick.vacateL1 := by
  rw [frontEnd, if_pos h]

theorem frontEnd_of_ne {s : State} (h : s.fetchedWord ≠ sentinelWord) :
    frontEnd s = decodeStep s.countTick.latchFetched := by
  rw [frontEnd, if_neg h]

/-- The front end writes the tick counter, the PC and L1 to L3 (R102, R105, R106). -/
theorem frontEnd_frame (s : State) :
    frontEnd s =
      { s with
        pcHigh := (frontEnd s).pcHigh, pcLow := (frontEnd s).pcLow, l1 := (frontEnd s).l1, l2 := (frontEnd s).l2,
        l3 := (frontEnd s).l3, cycle := s.cycle + 1, freeCount := (frontEnd s).freeCount } := by
  by_cases h : s.fetchedWord = sentinelWord
  · rw [frontEnd_of_sentinel h, decodeStep_frame]; rfl
  · rw [frontEnd_of_ne h, decodeStep_frame]; rfl

@[simp] theorem frontEnd_l4 (s : State) : (frontEnd s).l4 = s.l4 := by rw [frontEnd_frame]
@[simp] theorem frontEnd_cycle (s : State) : (frontEnd s).cycle = s.cycle + 1 := by rw [frontEnd_frame]
@[simp] theorem frontEnd_runStatus (s : State) : (frontEnd s).runStatus = s.runStatus := by rw [frontEnd_frame]
@[simp] theorem frontEnd_v2RegIndex (s : State) : (frontEnd s).v2RegIndex = s.v2RegIndex := by rw [frontEnd_frame]
@[simp] theorem frontEnd_readReg (s : State) (i : RegNum) : (frontEnd s).readReg i = s.readReg i := by
  rw [frontEnd_frame]; rfl

theorem frontEnd_pcView_of_sentinel {s : State} (h : s.fetchedWord = sentinelWord) : (frontEnd s).pcView = s.pcView := by
  rw [frontEnd_of_sentinel h]; simp

theorem frontEnd_pcView_of_ne {s : State} (h : s.fetchedWord ≠ sentinelWord) :
    (frontEnd s).pcView = s.pcView + 1 := by
  rw [frontEnd_of_ne h]; simp

theorem frontEnd_l1_of_sentinel {s : State} (h : s.fetchedWord = sentinelWord) : (frontEnd s).l1.payload = none := by
  rw [frontEnd_of_sentinel h]; simp [State.vacateL1]

theorem frontEnd_l1_of_ne {s : State} (h : s.fetchedWord ≠ sentinelWord) :
    (frontEnd s).l1 = ⟨some s.fetchedWord, s.pcView⟩ := by
  rw [frontEnd_of_ne h, decodeStep_l1]; rfl

theorem frontEnd_l2_of_sentinel {s : State} (h : s.fetchedWord = sentinelWord) : (frontEnd s).l2.payload = none := by
  rw [frontEnd_of_sentinel h, decodeStep_l2_of_none rfl]

theorem frontEnd_l2_of_ne {s : State} (h : s.fetchedWord ≠ sentinelWord) :
    (frontEnd s).l2 = ⟨some (decodeRecord s.fetchedWord), s.pcView⟩ := by
  rw [frontEnd_of_ne h, decodeStep_l2_of_some rfl]; rfl

/-- An Occupied L2 is promoted with its pc-tag. -/
theorem frontEnd_l3_of_some {s : State} {r : DecodedRecord} (h : s.l2.payload = some r) :
    (frontEnd s).l3 = ⟨some r, s.l2.pcTag⟩ := by
  by_cases fetched : s.fetchedWord = sentinelWord
  · rw [frontEnd_of_sentinel fetched]; exact decodeStep_l3_of_some (s := s.countTick.vacateL1) h
  · rw [frontEnd_of_ne fetched]; exact decodeStep_l3_of_some (s := s.countTick.latchFetched) h

theorem frontEnd_l3_of_none {s : State} (h : s.l2.payload = none) : (frontEnd s).l3 = s.l3 := by
  by_cases fetched : s.fetchedWord = sentinelWord
  · rw [frontEnd_of_sentinel fetched]; exact decodeStep_l3_of_none (s := s.countTick.vacateL1) h
  · rw [frontEnd_of_ne fetched]; exact decodeStep_l3_of_none (s := s.countTick.latchFetched) h

/-! ### The dispatch -/

/-- No record dispatches as the sentinel, which the fetch-step keeps out of the latches (R90, R103). -/
theorem instr_ne_sentinel (r : DecodedRecord) : r.instr ≠ .sentinel := by
  unfold DecodedRecord.instr instrOf
  split <;> exact nofun

/-- A word other than the sentinel is the instruction that its record dispatches as (R88, R110). -/
theorem decode_of_ne {w : Word} (h : w ≠ sentinelWord) : decode w = (decodeRecord w).instr := by
  rw [decode, if_neg h]

/-- `regIndex2` answers the index of R92. -/
theorem regIndex2_of_sourceIndex {s : State} {v : Value2} {i : RegNum} (h : SourceIndex s v i) :
    regIndex2 s.v2RegIndex v = .ok i := by
  cases resolved : regIndex2 s.v2RegIndex v with
  | ok j =>
    have sameNumber : j.val = i.val := by
      rcases h with ⟨nonneg, hi⟩ | ⟨neg, -, hi⟩ <;> rcases regIndex2_ok resolved with ⟨_, hj⟩ | ⟨_, -, hj⟩ <;> omega
    rw [Fin.ext sameNumber]
  | error e =>
    obtain ⟨neg, isFault, -⟩ := regIndex2_error resolved
    rcases h with ⟨nonneg, -⟩ | ⟨-, isMasked, -⟩
    · omega
    · rw [isMasked] at isFault; cases isFault

/-- The branches that are taken: BEQZ of a zero register, and BR with a second register (R160, R161). -/
theorem takesBranch_iff {i : Instr} {s : State} :
    takesBranch i s = true ↔
      (∃ d v, i = .beqz d v ∧ s.readReg d = 0) ∨ ∃ d v j, i = .br d v ∧ SourceIndex s v j := by
  constructor
  · intro taken
    rcases instr_of_takesBranch taken with isBeqz | ⟨d, v, rfl⟩
    · exact .inl isBeqz
    · cases resolved : regIndex2 s.v2RegIndex v with
      | ok j => exact .inr ⟨d, v, j, rfl, regIndex2_ok resolved⟩
      | error e => simp [takesBranch, resolved] at taken
  · rintro (⟨d, v, rfl, zero⟩ | ⟨d, v, j, rfl, index⟩)
    · simp [takesBranch, zero]
    · simp [takesBranch, regIndex2_of_sourceIndex index]

theorem squashes_iff {s : State} : Squashes s ↔ ∃ r, s.l4.payload = some r ∧ takesBranch r.instr s = true := by
  simp only [Squashes, takesBranch_iff]

/-- The front end does not write what decides whether a branch is taken. -/
theorem takesBranch_frontEnd (i : Instr) (s : State) : takesBranch i (frontEnd s) = takesBranch i s := by
  cases i with
  | beqz d v => simp [takesBranch]
  | br d v => simp [takesBranch]
  | _ => rfl

/-- BEQZ of a zero register (R160). -/
theorem exec_beqz_of_zero {d : RegNum} {s : State} (h : s.readReg d = 0) (v : Value2) :
    exec (.beqz d v) s = .next (takeBranch (branchTarget s.pcView v) s) := by
  change execBeqz d v s = _
  rw [execBeqz, if_pos h]

/-- BR with a second register (R161). -/
theorem exec_br_of_sourceIndex {s : State} {v : Value2} {i : RegNum} (h : SourceIndex s v i) (d : RegNum) :
    exec (.br d v) s = .next (takeBranch (s.readReg i) s) := by
  change execBr d v s = _
  rw [execBr, regIndex2_of_sourceIndex h]

theorem exec_of_takesBranch {i : Instr} {s : State} (h : takesBranch i s = true) :
    ∃ target, exec i s = .next (takeBranch target s) := by
  rcases takesBranch_iff.mp h with ⟨d, v, rfl, zero⟩ | ⟨d, v, j, rfl, index⟩
  · exact ⟨_, exec_beqz_of_zero zero v⟩
  · exact ⟨_, exec_br_of_sourceIndex index d⟩

/-- `t` is `s` but for registers, status register and data memory. -/
def DataOnly (s t : State) : Prop := t = { s with regs := t.regs, sr := t.sr, dm := t.dm }

theorem DataOnly.refl (s : State) : DataOnly s s := rfl

/-- An instruction that takes no branch leaves the pipeline as it is (R104, R108). -/
theorem exec_dataOnly {r : DecodedRecord} {s t : State} (h : exec r.instr s = .next t)
    (notTaken : takesBranch r.instr s = false) : DataOnly s t := by
  cases exec_effect h with
  | register _ _ writes =>
    obtain ⟨x, v, -, rfl⟩ := writes
    rfl
  | store _ _ _ _ _ stores => subst stores; rfl
  | branch _ isTaken _ => rw [notTaken] at isTaken; cases isTaken
  | nothing same => subst same; rfl
  | sentinel isSentinel _ => exact absurd isSentinel (instr_ne_sentinel r)

theorem registerOp_ne_refused (result : Byte → Byte → Byte) (flags : Byte → Byte → Byte → State → State) (d : RegNum)
    (v : Value2) (s : State) (q : Refusal) : registerOp result flags d v s ≠ .refused q := by
  unfold registerOp; split <;> exact nofun

theorem shiftOp_ne_refused (result : Byte → Nat → Byte) (d : RegNum) (v : Value2) (s : State) (q : Refusal) :
    shiftOp result d v s ≠ .refused q := by
  unfold shiftOp; split <;> exact nofun

/-- Every instruction has a meaning. -/
theorem exec_ne_refused (i : Instr) (s : State) (q : Refusal) : exec i s ≠ .refused q := by
  cases i with
  | add d v => exact registerOp_ne_refused addResult addFlags d v s q
  | sub d v => exact registerOp_ne_refused subResult subFlags d v s q
  | mul d v => exact registerOp_ne_refused mulResult (fun _ _ r => nzFlags r) d v s q
  | eor d v => exact registerOp_ne_refused eorResult (fun _ _ r => nzFlags r) d v s q
  | sal d v => exact shiftOp_ne_refused salResult d v s q
  | sar d v => exact shiftOp_ne_refused sarResult d v s q
  | ldr d v => change execLdr d v s ≠ _; unfold execLdr; split <;> exact nofun
  | str d v => change execStr d v s ≠ _; unfold execStr; split <;> exact nofun
  | br d v => change execBr d v s ≠ _; unfold execBr; split <;> exact nofun
  | beqz d v => change execBeqz d v s ≠ _; unfold execBeqz; split <;> exact nofun
  | _ => exact nofun

/-! ### The rest of the execute-step and the termination check -/

/-- The second half of the execute-step is the move of R107. -/
theorem advanceL3_movesOn (u : State) : MovesOn u u.advanceL3 := by
  have frame := advanceL3_frame u
  unfold State.advanceL3 at frame ⊢
  cases h : u.l3.payload with
  | some r =>
    rw [h] at frame
    exact ⟨fun r' hr => (by cases h.symm.trans hr; exact ⟨rfl, rfl⟩), fun hn => (by cases h.symm.trans hn), frame⟩
  | none =>
    rw [h] at frame
    exact ⟨fun r' hr => (by cases h.symm.trans hr), fun _ => ⟨vacateL4_payload u, vacateL4_l3 u⟩, frame⟩

theorem vacateL4_frame (u : State) : u.vacateL4 = { u with l4 := u.vacateL4.l4, freeCount := u.vacateL4.freeCount } := by
  unfold State.vacateL4; split <;> rfl

/-- Emptying L4 first does not change where L3 moves. -/
theorem vacateL4_advanceL3_movesOn (u : State) : MovesOn u u.vacateL4.advanceL3 := by
  obtain ⟨occupied, empty, frame⟩ := advanceL3_movesOn u.vacateL4
  rw [vacateL4_l3] at occupied empty
  exact ⟨occupied, empty, frame.trans (by rw [vacateL4_frame])⟩

@[simp] theorem checkTermination_l1 (s : State) : (checkTermination s).l1 = s.l1 := by
  rw [checkTermination_eq]; split <;> rfl
@[simp] theorem checkTermination_l2 (s : State) : (checkTermination s).l2 = s.l2 := by
  rw [checkTermination_eq]; split <;> rfl
@[simp] theorem checkTermination_l3 (s : State) : (checkTermination s).l3 = s.l3 := by
  rw [checkTermination_eq]; split <;> rfl
@[simp] theorem checkTermination_l4 (s : State) : (checkTermination s).l4 = s.l4 := by
  rw [checkTermination_eq]; split <;> rfl
@[simp] theorem checkTermination_cycle (s : State) : (checkTermination s).cycle = s.cycle := by
  rw [checkTermination_eq]; split <;> rfl
@[simp] theorem checkTermination_pcView (s : State) : (checkTermination s).pcView = s.pcView := by
  rw [checkTermination_eq]; split <;> rfl

theorem allLatchesEmpty_iff {s : State} :
    s.allLatchesEmpty = true ↔ s.l1.payload = none ∧ s.l2.payload = none ∧ s.l3.payload = none ∧ s.l4.payload = none := by
  simp [State.allLatchesEmpty, and_assoc]

/-- Which status the check gives a Running block (R112). -/
theorem checkTermination_runStatus {s : State} (h : s.runStatus = .running) :
    (checkTermination s).runStatus = if (checkTermination s).allLatchesEmpty = true then .terminated else .running := by
  have sameLatches : (checkTermination s).allLatchesEmpty = s.allLatchesEmpty := by simp [State.allLatchesEmpty]
  rw [sameLatches, checkTermination_eq]
  by_cases empty : s.allLatchesEmpty = true <;> simp [h, empty]

/-! ### What a step of a Running block does -/

section Step

variable {s t u : State} {r : DecodedRecord}

/-- With L4 Empty only L3 moves on. -/
theorem step_of_l4_none (running : s.runStatus = .running) (empty : s.l4.payload = none) :
    step s = .next (checkTermination (frontEnd s).advanceL3) := by
  rw [step_of_running running, tick_eq, executeStep_of_none (by rw [frontEnd_l4, empty])]; rfl

/-- With a record in L4 the step is what its dispatch makes of it. -/
theorem step_of_l4_some (running : s.runStatus = .running) (occupied : s.l4.payload = some r) :
    step s = mapNext checkTermination (afterDispatch (frontEnd s) (exec r.instr (frontEnd s))) := by
  rw [step_of_running running, tick_eq, executeStep_of_some (by rw [frontEnd_l4, occupied])]

theorem step_of_exec_next (running : s.runStatus = .running) (occupied : s.l4.payload = some r)
    (dispatched : exec r.instr (frontEnd s) = .next u) : step s = .next (checkTermination u.vacateL4.advanceL3) := by
  rw [step_of_l4_some running occupied, dispatched]; rfl

theorem step_of_exec_fault {e : Fault} (running : s.runStatus = .running) (occupied : s.l4.payload = some r)
    (faulted : exec r.instr (frontEnd s) = .fault e) : step s = .next ((frontEnd s).recordFault e) := by
  rw [step_of_l4_some running occupied, faulted]; rfl

/-- After a squash the execute-step finds L3 and L4 Empty and changes nothing more. -/
theorem step_of_exec_takeBranch {target : Byte} (running : s.runStatus = .running) (occupied : s.l4.payload = some r)
    (taken : exec r.instr (frontEnd s) = .next (takeBranch target (frontEnd s))) :
    step s = .next (checkTermination (takeBranch target (frontEnd s))) :=
  step_of_exec_next running occupied taken

/-- A Running block takes its tick. -/
theorem exists_step_of_running (running : s.runStatus = .running) : ∃ t, step s = .next t := by
  cases occupied : s.l4.payload with
  | none => exact ⟨_, step_of_l4_none running occupied⟩
  | some r =>
    cases dispatched : exec r.instr (frontEnd s) with
    | next u => exact ⟨_, step_of_exec_next running occupied dispatched⟩
    | fault e => exact ⟨_, step_of_exec_fault running occupied dispatched⟩
    | refused q => exact absurd dispatched (exec_ne_refused _ _ q)

/-- A block that has been left Running was Running before. -/
theorem running_of_step (h : step s = .next t) (running : t.runStatus = .running) : s.runStatus = .running := by
  rcases step_next h with ⟨running, -⟩ | ⟨-, rfl⟩
  · exact running
  · exact running

/-- A tick from `s` to `t` with no squash and no model fault. -/
structure PlainTick (s t : State) : Prop where
  l1 : t.l1 = (frontEnd s).l1
  l2 : t.l2 = (frontEnd s).l2
  l3 : t.l3.payload = none
  l4 : t.l4.payload = (frontEnd s).l3.payload
  /-- A record that moves to L4 keeps its pc-tag (R107). -/
  l4_tagged : ∀ r, (frontEnd s).l3.payload = some r → t.l4 = ⟨some r, (frontEnd s).l3.pcTag⟩
  pcView : t.pcView = (frontEnd s).pcView
  cycle : t.cycle = (frontEnd s).cycle
  status : t.runStatus = if t.allLatchesEmpty = true then .terminated else .running

/-- What the tick makes of a dispatch that leaves the pipeline alone. -/
theorem plainTick_of_movesOn (running : s.runStatus = .running) {v : State} (kept : DataOnly (frontEnd s) u)
    (moved : MovesOn u v) : PlainTick s (checkTermination v) := by
  obtain ⟨occupied, empty, frame⟩ := moved
  have sameL3 : u.l3 = (frontEnd s).l3 := by rw [kept]
  simp only [sameL3] at occupied empty
  have stillRunning : v.runStatus = .running :=
    calc v.runStatus = u.runStatus := by rw [frame]
      _ = (frontEnd s).runStatus := by rw [kept]
      _ = .running := by rw [frontEnd_runStatus, running]
  exact
    { l1 := by rw [checkTermination_l1, frame, kept]
      l2 := by rw [checkTermination_l2, frame, kept]
      l3 := by
        rw [checkTermination_l3]
        cases h : (frontEnd s).l3.payload with
        | some r => exact (occupied r h).2
        | none => rw [(empty h).2, h]
      l4 := by
        rw [checkTermination_l4]
        cases h : (frontEnd s).l3.payload with
        | some r => rw [(occupied r h).1]
        | none => exact (empty h).1
      l4_tagged := fun r h => by rw [checkTermination_l4, (occupied r h).1]
      pcView := by rw [checkTermination_pcView, frame, kept]; rfl
      cycle := by rw [checkTermination_cycle, frame, kept]
      status := checkTermination_runStatus stillRunning }

/-- All that a tick can do: it ends in a model fault (R122), it squashes (R108), or neither. -/
inductive Tick (s t : State) : Prop where
  | faulted (r : DecodedRecord) (e : Fault) (occupied : s.l4.payload = some r)
      (raised : exec r.instr (frontEnd s) = .fault e) (leaves : t = (frontEnd s).recordFault e)
  | squashed (target : Byte) (squashes : Squashes s) (leaves : t = checkTermination (takeBranch target (frontEnd s)))
  | plain (plain : ¬ Squashes s) (leaves : PlainTick s t)

theorem tick_of_step (running : s.runStatus = .running) (h : step s = .next t) : Tick s t := by
  cases occupied : s.l4.payload with
  | none =>
    rw [step_of_l4_none running occupied] at h
    cases h
    have plain : ¬ Squashes s := by rintro ⟨r, hr, -⟩; cases occupied.symm.trans hr
    exact .plain plain (plainTick_of_movesOn running (DataOnly.refl _) (advanceL3_movesOn _))
  | some r =>
    cases taken : takesBranch r.instr s with
    | true =>
      obtain ⟨target, dispatched⟩ := exec_of_takesBranch ((takesBranch_frontEnd r.instr s).trans taken)
      rw [step_of_exec_takeBranch running occupied dispatched] at h
      cases h
      exact .squashed target (squashes_iff.mpr ⟨r, occupied, taken⟩) rfl
    | false =>
      have plain : ¬ Squashes s := fun squashes => by
        obtain ⟨r', hr, taken'⟩ := squashes_iff.mp squashes
        cases occupied.symm.trans hr
        rw [taken] at taken'
        cases taken'
      cases dispatched : exec r.instr (frontEnd s) with
      | next u =>
        rw [step_of_exec_next running occupied dispatched] at h
        cases h
        have kept := exec_dataOnly dispatched ((takesBranch_frontEnd r.instr s).trans taken)
        exact .plain plain (plainTick_of_movesOn running kept (vacateL4_advanceL3_movesOn u))
      | fault e =>
        rw [step_of_exec_fault running occupied dispatched] at h
        cases h
        exact .faulted r e occupied dispatched rfl
      | refused q => exact absurd dispatched (exec_ne_refused _ _ q)

end Step

/-! ### What every step leaves -/

section Leaves

variable {s t : State}

theorem not_notFaulted_recordFault (s : State) (e : Fault) : ¬ NotFaulted (s.recordFault e) := fun h => h e rfl

/-- The check of R112, of every tick but a faulted one. -/
theorem Tick.status (tick : Tick s t) (running : s.runStatus = .running) (notFaulted : NotFaulted t) :
    t.runStatus = if t.allLatchesEmpty = true then .terminated else .running := by
  cases tick with
  | faulted r e _ _ leaves => exact absurd (leaves ▸ notFaulted) (not_notFaulted_recordFault _ e)
  | squashed target _ leaves =>
    subst leaves
    exact checkTermination_runStatus ((frontEnd_runStatus s).trans running)
  | plain _ leaves => exact leaves.status

/-- The execute-step does not touch L1 (R104). -/
theorem Tick.l1 (tick : Tick s t) : t.l1 = (frontEnd s).l1 := by
  cases tick with
  | faulted r e _ _ leaves => rw [leaves]; rfl
  | squashed target _ leaves => rw [leaves, checkTermination_l1]; rfl
  | plain _ leaves => exact leaves.l1

/-- L2 is as the front end left it, or squashed. -/
theorem Tick.l2 (tick : Tick s t) : t.l2 = (frontEnd s).l2 ∨ t.l2 = emptyLatch DecodedRecord := by
  cases tick with
  | faulted r e _ _ leaves => rw [leaves]; exact .inl rfl
  | squashed target _ leaves => rw [leaves, checkTermination_l2]; exact .inr rfl
  | plain _ leaves => exact .inl leaves.l2

/-- L3 is Empty between ticks (R113). -/
theorem Tick.l3 (tick : Tick s t) (notFaulted : NotFaulted t) : t.l3.payload = none := by
  cases tick with
  | faulted r e _ _ leaves => exact absurd (leaves ▸ notFaulted) (not_notFaulted_recordFault _ e)
  | squashed target _ leaves => rw [leaves, checkTermination_l3]; rfl
  | plain _ leaves => exact leaves.l3

theorem Tick.cycle (tick : Tick s t) : t.cycle = s.cycle + 1 := by
  cases tick with
  | faulted r e _ _ leaves => rw [leaves, recordFault_cycle, frontEnd_cycle]
  | squashed target _ leaves => rw [leaves, checkTermination_cycle]; exact frontEnd_cycle s
  | plain _ leaves => rw [leaves.cycle, frontEnd_cycle]

theorem step_cycle (running : s.runStatus = .running) (stepped : step s = .next t) : t.cycle = s.cycle + 1 :=
  (tick_of_step running stepped).cycle

/-- A tick that squashes leaves the latches behind L1 Empty (R108). -/
theorem Tick.empty_of_squashes (tick : Tick s t) (squashes : Squashes s) (notFaulted : NotFaulted t) :
    t.l2.payload = none ∧ t.l3.payload = none ∧ t.l4.payload = none := by
  cases tick with
  | faulted r e _ _ leaves => exact absurd (leaves ▸ notFaulted) (not_notFaulted_recordFault _ e)
  | squashed target _ leaves =>
    rw [leaves, checkTermination_l2, checkTermination_l3, checkTermination_l4]
    exact ⟨rfl, rfl, rfl⟩
  | plain plain _ => exact absurd squashes plain

theorem Tick.of_not_squashes (tick : Tick s t) (plain : ¬ Squashes s) (notFaulted : NotFaulted t) : PlainTick s t := by
  cases tick with
  | faulted r e _ _ leaves => exact absurd (leaves ▸ notFaulted) (not_notFaulted_recordFault _ e)
  | squashed _ squashes _ => exact absurd squashes plain
  | plain _ leaves => exact leaves

/-- A tick with no squash moves an Occupied L2 to L4 (R105, R107). -/
theorem PlainTick.l4_of_l2 (plain : PlainTick s t) {r : DecodedRecord} (h : s.l2.payload = some r) :
    t.l4 = ⟨some r, s.l2.pcTag⟩ := by
  have promoted := frontEnd_l3_of_some h
  rw [plain.l4_tagged r (by rw [promoted]), promoted]

theorem notFaulted_of_runStatus_eq_running (h : s.runStatus = .running) : NotFaulted s := fun e he => by
  cases h.symm.trans he

/-- The fetch reads at the PC of its own state; the words are those of any state before. -/
theorem fetchedWord_of_codeSame (code : CodeSame s t) : t.fetchedWord = s.ifetch (imAddrOf t.pcView) := code _

theorem codeSame_of_step (h : step s = .next t) : CodeSame s t := instructionMemoryIsNeverWritten.2 s t h

/-! ### What the record latches hold -/

/-- A latch holds no record, or one with the property. -/
def Holds (P : DecodedRecord → Prop) (l : Latch DecodedRecord) : Prop := ∀ r, l.payload = some r → P r

theorem holds_of_none {P : DecodedRecord → Prop} {l : Latch DecodedRecord} (h : l.payload = none) : Holds P l :=
  fun r hr => by cases h.symm.trans hr

/-- The records in L2, L3 and L4 have the property. -/
structure RecordsHold (P : DecodedRecord → Prop) (s : State) : Prop where
  l2 : Holds P s.l2
  l3 : Holds P s.l3
  l4 : Holds P s.l4

variable {P : DecodedRecord → Prop}

theorem holds_frontEnd_l2 (fetched : s.fetchedWord ≠ sentinelWord → P (decodeRecord s.fetchedWord)) :
    Holds P (frontEnd s).l2 := by
  by_cases h : s.fetchedWord = sentinelWord
  · exact holds_of_none (frontEnd_l2_of_sentinel h)
  · rw [frontEnd_l2_of_ne h]
    rintro r ⟨⟩
    exact fetched h

theorem RecordsHold.frontEnd_l3 (records : RecordsHold P s) : Holds P (frontEnd s).l3 := by
  cases h : s.l2.payload with
  | some r =>
    rw [frontEnd_l3_of_some h]
    rintro r ⟨⟩
    exact records.l2 r h
  | none => rw [frontEnd_l3_of_none h]; exact records.l3

/-- The latches hold no record but those of fetched words, moved on. -/
theorem RecordsHold.tick (records : RecordsHold P s)
    (fetched : s.fetchedWord ≠ sentinelWord → P (decodeRecord s.fetchedWord)) (tick : Tick s t) : RecordsHold P t := by
  have decoded : Holds P (frontEnd s).l2 := holds_frontEnd_l2 fetched
  cases tick with
  | faulted r e _ _ leaves =>
    subst leaves
    exact ⟨decoded, records.frontEnd_l3, (frontEnd_l4 s).symm ▸ records.l4⟩
  | squashed target _ leaves =>
    subst leaves
    rw [checkTermination_eq]
    split <;> exact ⟨holds_of_none rfl, holds_of_none rfl, holds_of_none rfl⟩
  | plain _ leaves =>
    exact ⟨leaves.l2 ▸ decoded, holds_of_none leaves.l3, fun r h => records.frontEnd_l3 r (leaves.l4.symm.trans h)⟩

end Leaves

/-! ### The obligations on one tick -/

/-- Settles O30. -/
theorem sentinelMeaning : Obligations.SentinelMeaning :=
  ⟨rfl, fun s => ⟨fetchStep_of_sentinel, s.vacateL1, rfl, rfl, rfl, fun _ _ => rfl, ⟨fun _ _ => rfl, fun _ _ => rfl⟩,
    fun _ _ => rfl, fun _ => rfl⟩⟩

/-- Settles O42. -/
theorem fetchStepRule : Obligations.FetchStepRule := fun s =>
  ⟨fun h => ⟨_, fetchStep_of_sentinel h, rfl, rfl⟩, fun h => ⟨_, fetchStep_of_ne h, rfl, incrementPc_pc s, rfl⟩⟩

/-- Settles O43. -/
theorem decodeStepRule : Obligations.DecodeStepRule := by
  rintro s _ rfl
  exact ⟨fun _ => decodeStep_l3_of_some, decodeStep_l3_of_none, fun _ => decodeStep_l2_of_some, decodeStep_l2_of_none,
    decodeStep_frame s⟩

/-- Settles O44. -/
theorem executeStepRule : Obligations.ExecuteStepRule := fun s =>
  ⟨fun empty => ⟨_, executeStep_of_none empty, advanceL3_movesOn s⟩,
    fun r u occupied dispatched =>
      ⟨_, by rw [executeStep_of_some occupied, dispatched]; rfl, vacateL4_advanceL3_movesOn u⟩⟩

/-- Settles O41. -/
theorem stepRunsTheInstructionInLatchFour : Obligations.StepRunsTheInstructionInLatchFour := fun _ running =>
  ⟨fun _ occupied => ⟨fun _ => step_of_exec_next running occupied, fun _ => step_of_exec_fault running occupied⟩,
    step_of_l4_none running⟩

/-- The target of a taken BEQZ as the statement writes it (R160). -/
theorem branchTarget_eq {pc target : Byte} {v : Value2}
    (h : (target.toNat : Int) = ((pc.toNat : Int) + value2Int v - 1) % 256) : branchTarget pc v = target := by
  apply BitVec.eq_of_toNat_eq
  rw [branchTarget, BitVec.toNat_ofInt]
  omega

/-- Settles O46: the dispatch takes the branch to the target, and the rest of the tick finds nothing to move. -/
theorem takenBranchSquashesAndRedirects : Obligations.TakenBranchSquashesAndRedirects := by
  intro s r target running occupied isBranch
  have dispatched : exec r.instr (frontEnd s) = .next (takeBranch target (frontEnd s)) := by
    rcases isBranch with ⟨d, v, isBeqz, zero, atTarget⟩ | ⟨d, v, i, isBr, index, rfl⟩
    · rw [isBeqz, exec_beqz_of_zero ((frontEnd_readReg s d).trans zero), branchTarget_eq atTarget]
    · have index' : SourceIndex (frontEnd s) v i := by simpa [SourceIndex] using index
      rw [isBr, exec_br_of_sourceIndex index', frontEnd_readReg]
  have stepped := step_of_exec_takeBranch running occupied dispatched
  have atTarget : (checkTermination (takeBranch target (frontEnd s))).pcView = target := checkTermination_pcView _
  refine ⟨_, stepped, checkTermination_l2 _, checkTermination_l3 _, checkTermination_l4 _, checkTermination_l1 _, atTarget, ?_⟩
  rw [fetchedWord_of_codeSame (codeSame_of_step stepped), atTarget]

/-- A squash is no model fault. -/
theorem Tick.notFaulted_of_squashes {s t : State} (tick : Tick s t) (running : s.runStatus = .running)
    (squashes : Squashes s) : NotFaulted t := by
  cases tick with
  | faulted r e occupied raised _ =>
    obtain ⟨r', occupied', taken⟩ := squashes_iff.mp squashes
    cases occupied.symm.trans occupied'
    obtain ⟨target, dispatched⟩ := exec_of_takesBranch ((takesBranch_frontEnd r.instr s).trans taken)
    cases raised.symm.trans dispatched
  | squashed target _ leaves =>
    subst leaves
    intro e faulted
    have status := checkTermination_runStatus (s := takeBranch target (frontEnd s)) ((frontEnd_runStatus s).trans running)
    rw [status] at faulted
    split at faulted <;> cases faulted
  | plain plain _ => exact absurd squashes plain

/-- Settles O47: the squash empties the latches behind L1, and L1 is Empty where the fetch read the sentinel. -/
theorem takenBranchEndsTheRunAtTheSentinel : Obligations.TakenBranchEndsTheRunAtTheSentinel := by
  intro s t running squashes stepped
  have tick := tick_of_step running stepped
  have notFaulted := tick.notFaulted_of_squashes running squashes
  have status := tick.status running notFaulted
  obtain ⟨l2, l3, l4⟩ := tick.empty_of_squashes squashes notFaulted
  have emptyIffL1 : t.allLatchesEmpty = true ↔ (frontEnd s).l1.payload = none := by
    simp [allLatchesEmpty_iff, tick.l1, l2, l3, l4]
  constructor
  · intro isSentinel
    rw [status, if_pos (emptyIffL1.mpr (frontEnd_l1_of_sentinel isSentinel))]
  · intro notSentinel
    rw [status, if_neg]
    rw [emptyIffL1, frontEnd_l1_of_ne notSentinel]
    exact nofun

/-- Settles O48: L2 goes to L3 and on to L4, and the word fetched into L1 is decoded into L2. -/
theorem latchesAfterATick : Obligations.LatchesAfterATick := by
  intro s t inv running stepped notFaulted
  have tick := tick_of_step running stepped
  refine ⟨tick.l3 notFaulted, fun plain => ?_, fun squashes => ?_⟩
  · have moves := tick.of_not_squashes plain notFaulted
    have l4 : t.l4.payload = s.l2.payload := by
      rw [moves.l4]
      cases h : s.l2.payload with
      | some r => rw [frontEnd_l3_of_some h]
      | none => rw [frontEnd_l3_of_none h, inv.staged (notFaulted_of_runStatus_eq_running running)]
    rw [moves.l1, moves.l2]
    by_cases h : s.fetchedWord = sentinelWord
    · rw [frontEnd_l1_of_sentinel h, frontEnd_l2_of_sentinel h]
      exact ⟨nofun, fun _ => rfl, l4⟩
    · rw [frontEnd_l1_of_ne h, frontEnd_l2_of_ne h]
      exact ⟨fun w hw => by cases hw; rfl, nofun, l4⟩
  · obtain ⟨l2, -, l4⟩ := tick.empty_of_squashes squashes notFaulted
    exact ⟨l2, l4⟩

/-! ### The invariant -/

/-- Every instruction keeps the memories in canonical form (R60). -/
theorem exec_wf {i : Instr} {s t : State} (h : exec i s = .next t) (wf : Memory.wf s = true) : Memory.wf t = true := by
  cases exec_effect h with
  | register _ _ writes =>
    obtain ⟨x, v, -, rfl⟩ := writes
    exact wf
  | store _ _ ea _ _ stores => subst stores; exact memWrite_wf wf ea _
  | branch _ _ takes => subst takes; exact wf
  | nothing same => subst same; exact wf
  | sentinel _ empties => subst empties; exact wf

/-- So does every step: only its dispatch may write a memory. -/
theorem step_wf {s t : State} (h : step s = .next t) (wf : Memory.wf s = true) : Memory.wf t = true := by
  rcases step_next h with ⟨-, ticked⟩ | ⟨-, rfl⟩
  · obtain ⟨u, executed, rfl⟩ := tick_next ticked
    have front : Memory.wf (frontEnd s) = true := (wf_congr (frontEnd_im s) (frontEnd_dm s)).trans wf
    rw [wf_congr (checkTermination_im u) (checkTermination_dm u)]
    rcases executeStep_next executed with ⟨-, rfl⟩ | ⟨r, u', -, dispatched, rfl⟩ | ⟨r, e, -, -, rfl⟩
    · exact (wf_congr (advanceL3_im _) (advanceL3_dm _)).trans front
    · exact (wf_congr (by simp) (by simp)).trans (exec_wf dispatched front)
    · exact front
  · exact wf

/-- What the front end leaves in L1 is the word it fetched, never the sentinel (R102, R103). -/
theorem frontEnd_l1_eq_some {s : State} {w : Word} (h : (frontEnd s).l1.payload = some w) :
    w = s.fetchedWord ∧ s.fetchedWord ≠ sentinelWord := by
  by_cases isSentinel : s.fetchedWord = sentinelWord
  · cases (frontEnd_l1_of_sentinel isSentinel).symm.trans h
  · rw [frontEnd_l1_of_ne isSentinel] at h
    cases h
    exact ⟨rfl, isSentinel⟩

/-- What the front end leaves in L2 is the record of L1's word, with its pc-tag (R106). -/
theorem frontEnd_l2_eq_some {s : State} {r : DecodedRecord} (h : (frontEnd s).l2.payload = some r) :
    ∃ w, (frontEnd s).l1.payload = some w ∧ r = decodeRecord w ∧ (frontEnd s).l2.pcTag = (frontEnd s).l1.pcTag := by
  by_cases isSentinel : s.fetchedWord = sentinelWord
  · cases (frontEnd_l2_of_sentinel isSentinel).symm.trans h
  · rw [frontEnd_l2_of_ne isSentinel] at h ⊢
    rw [frontEnd_l1_of_ne isSentinel]
    cases h
    exact ⟨_, rfl, rfl, rfl⟩

/-- A record that the decode-step makes of a word other than the sentinel. -/
def IsDecoded (r : DecodedRecord) : Prop := ∃ w, w ≠ sentinelWord ∧ r = decodeRecord w

theorem Inv.recordsHold {s : State} (inv : Inv s) : RecordsHold IsDecoded s where
  l2 r h := by
    obtain ⟨w, fetched, rfl, -⟩ := inv.decoded r h
    exact ⟨w, inv.fetched w fetched, rfl⟩
  l3 := inv.records.1
  l4 := inv.records.2

/-- A tick keeps the invariant. -/
theorem Inv.tick {s t : State} (inv : Inv s) (running : s.runStatus = .running) (stepped : step s = .next t) : Inv t := by
  have tick := tick_of_step running stepped
  have records := inv.recordsHold.tick (fun h => ⟨_, h, rfl⟩) tick
  exact
    { memory := step_wf stepped inv.memory
      reserved := fun b hb => (step_sr_high stepped hb).trans (inv.reserved b hb)
      high := fun a ha => (dataMemoryAboveThirtyOneIsNeverWritten s t stepped a ha).trans (inv.high a ha)
      fetched := fun w h => by
        rw [tick.l1] at h
        obtain ⟨rfl, notSentinel⟩ := frontEnd_l1_eq_some h
        exact notSentinel
      decoded := fun r h => by
        rcases tick.l2 with l2 | l2 <;> rw [l2] at h
        · rw [l2, tick.l1]; exact frontEnd_l2_eq_some h
        · cases h
      staged := tick.l3
      records := ⟨records.l3, records.l4⟩
      ended := fun ended => by
        have notFaulted : NotFaulted t := fun e faulted => by cases ended.symm.trans faulted
        by_contra occupied
        rw [tick.status running notFaulted, if_neg occupied] at ended
        cases ended }

/-- Settles O56: a Running block ticks, a Terminated one stays. -/
theorem stepKeepsTheInvariant : Obligations.StepKeepsTheInvariant := by
  intro s t inv stepped
  rcases step_next stepped with ⟨running, -⟩ | ⟨-, rfl⟩
  · exact inv.tick running stepped
  · exact inv

/-! ### From fetch to dispatch -/

/-- Settles O51: the fetched word's record goes from L2 over L3 to L4, from where the third tick dispatches it. -/
theorem fetchToDispatchTakesTwoTicks : Obligations.FetchToDispatchTakesTwoTicks := by
  intro s s1 s2 running notSentinel step1 plain step2 plain1 running2
  have running1 := running_of_step step2 running2
  have tick1 := (tick_of_step running step1).of_not_squashes plain (notFaulted_of_runStatus_eq_running running1)
  have tick2 := (tick_of_step running1 step2).of_not_squashes plain1 (notFaulted_of_runStatus_eq_running running2)
  have l2 : s1.l2 = ⟨some (decodeRecord s.fetchedWord), s.pcView⟩ := by rw [tick1.l2, frontEnd_l2_of_ne notSentinel]
  have payload : s1.l2.payload = some (decodeRecord s.fetchedWord) := by rw [l2]
  have l4 : s2.l4 = ⟨some (decodeRecord s.fetchedWord), s.pcView⟩ := by rw [tick2.l4_of_l2 payload, l2]
  have occupied : s2.l4.payload = some (decodeRecord s.fetchedWord) := by rw [l4]
  rw [decode_of_ne notSentinel]
  exact ⟨l2, by rw [frontEnd_l3_of_some payload, l2], l4, fun t => step_of_exec_next running2 occupied,
    fun e => step_of_exec_fault running2 occupied⟩

/-- Settles O52: PCView counts on by one with every fetch but that of the sentinel, which is read again in the next tick. -/
theorem pcViewAtDispatch : Obligations.PcViewAtDispatch := by
  intro s s1 s2 running notSentinel step1 plain step2 plain1 running2
  have running1 := running_of_step step2 running2
  have tick1 := (tick_of_step running step1).of_not_squashes plain (notFaulted_of_runStatus_eq_running running1)
  have tick2 := (tick_of_step running1 step2).of_not_squashes plain1 (notFaulted_of_runStatus_eq_running running2)
  have code1 := codeSame_of_step step1
  have code2 : CodeSame s s2 := fun a => (codeSame_of_step step2 a).trans (code1 a)
  have pc1 : s1.pcView = s.pcView + 1 := by rw [tick1.pcView, frontEnd_pcView_of_ne notSentinel]
  have word1 : s1.fetchedWord = s.ifetch (pcAfter s.pcView 1) := by rw [fetchedWord_of_codeSame code1, pc1]; rfl
  rw [← word1]
  have onward (notSentinel1 : s1.fetchedWord ≠ sentinelWord) :
      s2.pcView = s.pcView + 2 ∧ s2.fetchedWord = s.ifetch (pcAfter s.pcView 2) := by
    have pc2 : s2.pcView = s.pcView + 2 := by
      rw [tick2.pcView, frontEnd_pcView_of_ne notSentinel1, pc1, BitVec.add_assoc]; rfl
    exact ⟨pc2, by rw [fetchedWord_of_codeSame code2, pc2]; rfl⟩
  refine ⟨fun isSentinel => ?_, fun notSentinel1 isSentinel => ?_, fun notSentinel1 notSentinel2 => ?_⟩
  · have pc2 : s2.pcView = s.pcView + 1 := by rw [tick2.pcView, frontEnd_pcView_of_sentinel isSentinel, pc1]
    have sameWord : s2.fetchedWord = s1.fetchedWord := by
      rw [fetchedWord_of_codeSame code2, fetchedWord_of_codeSame code1, pc1, pc2]
    rw [frontEnd_pcView_of_sentinel (sameWord.trans isSentinel), pc2]
  · obtain ⟨pc2, word2⟩ := onward notSentinel1
    rw [frontEnd_pcView_of_sentinel (word2.trans isSentinel), pc2]
  · obtain ⟨pc2, word2⟩ := onward notSentinel1
    rw [frontEnd_pcView_of_ne (word2 ▸ notSentinel2), pc2, BitVec.add_assoc]; rfl

/-! ### The end of a run -/

section Drain

variable {s t u : State}

/-- A tick that fetches the sentinel leaves at most L4 Occupied. -/
theorem Tick.empty_of_sentinel (tick : Tick s t) (isSentinel : s.fetchedWord = sentinelWord) (notFaulted : NotFaulted t) :
    t.l1.payload = none ∧ t.l2.payload = none ∧ t.l3.payload = none := by
  refine ⟨by rw [tick.l1, frontEnd_l1_of_sentinel isSentinel], ?_, tick.l3 notFaulted⟩
  rcases tick.l2 with l2 | l2
  · rw [l2, frontEnd_l2_of_sentinel isSentinel]
  · rw [l2]; rfl

/-- So the run ends with it where L4 is Empty too (R112). -/
theorem Tick.runStatus_of_sentinel (tick : Tick s t) (running : s.runStatus = .running)
    (isSentinel : s.fetchedWord = sentinelWord) (notFaulted : NotFaulted t) :
    (t.l4.payload = none → t.runStatus = .terminated) ∧ (t.l4.payload ≠ none → t.runStatus = .running) := by
  obtain ⟨l1, l2, l3⟩ := tick.empty_of_sentinel isSentinel notFaulted
  have emptyIffL4 : t.allLatchesEmpty = true ↔ t.l4.payload = none := by simp [allLatchesEmpty_iff, l1, l2, l3]
  rw [tick.status running notFaulted]
  exact ⟨fun h => if_pos (emptyIffL4.mpr h), fun h => if_neg (mt emptyIffL4.mp h)⟩

/-- With the sentinel fetched and only L4 Occupied, the tick is the last one: it dispatches L4 and finds nothing to move up. -/
theorem Tick.terminated_of_sentinel (tick : Tick s t) (running : s.runStatus = .running)
    (isSentinel : s.fetchedWord = sentinelWord) (l2 : s.l2.payload = none) (l3 : s.l3.payload = none)
    (notFaulted : NotFaulted t) : t.runStatus = .terminated := by
  refine (tick.runStatus_of_sentinel running isSentinel notFaulted).1 ?_
  by_cases squashes : Squashes s
  · obtain ⟨-, -, l4⟩ := tick.empty_of_squashes squashes notFaulted
    exact l4
  · rw [(tick.of_not_squashes squashes notFaulted).l4, frontEnd_l3_of_none l2, l3]

/-- A sentinel that did not end the run is fetched again: with L4 Occupied the tick was no squash, and the PC stayed. -/
theorem fetchedWord_of_sentinel (tick : Tick s t) (code : CodeSame s t) (isSentinel : s.fetchedWord = sentinelWord)
    (notFaulted : NotFaulted t) (occupied : t.l4.payload ≠ none) : t.fetchedWord = sentinelWord := by
  have plain : ¬ Squashes s := fun squashes => by
    obtain ⟨-, -, l4⟩ := tick.empty_of_squashes squashes notFaulted
    exact occupied l4
  rw [fetchedWord_of_codeSame code, (tick.of_not_squashes plain notFaulted).pcView, frontEnd_pcView_of_sentinel isSentinel]
  exact isSentinel

end Drain

/-- Settles O53: the tick leaves at most L4 Occupied, and the next one, which fetches the sentinel again, dispatches it. -/
theorem sentinelDrainsThePipeline : Obligations.SentinelDrainsThePipeline := by
  intro s s1 running isSentinel step1 notFaulted
  have tick1 := tick_of_step running step1
  obtain ⟨l1, l2, l3⟩ := tick1.empty_of_sentinel isSentinel notFaulted
  have status := tick1.runStatus_of_sentinel running isSentinel notFaulted
  refine ⟨l1, l2, l3, ?_⟩
  by_cases l4 : s1.l4.payload = none
  · exact .inl (status.1 l4)
  · have running1 := status.2 l4
    have isSentinel1 := fetchedWord_of_sentinel tick1 (codeSame_of_step step1) isSentinel notFaulted l4
    obtain ⟨s2, step2⟩ := exists_step_of_running running1
    exact .inr ⟨running1, s2, step2, (tick_of_step running1 step2).terminated_of_sentinel running1 isSentinel1 l2 l3⟩

end Sys2Proof.Machine

/-! PROOFS. The run of a loaded program (40_pipeline.md R123): the host's loop, straight-line code, and how many ticks a run
lasts. -/

namespace Sys2Proof.Machine

open Sys2Proof

/-! ### Ticks in a row, and the host's loop over them -/

theorem ticks_succ_of_step {s u : State} (h : step s = .next u) (n : Nat) : ticks (n + 1) s = ticks n u := by
  rw [ticks_succ, h]; rfl

theorem ticks_succ_of_ticks {n : Nat} {s t : State} (h : ticks n s = .next t) : ticks (n + 1) s = step t := by
  rw [ticks_add_one, h]; rfl

/-- `k` ticks and then `j` more. -/
theorem ticks_add_of_ticks {k : Nat} {s t : State} (ticked : ticks k s = .next t) (j : Nat) :
    ticks (k + j) s = ticks j t := by
  induction j with
  | zero => exact ticked
  | succ j ih => rw [← Nat.add_assoc, ticks_add_one, ih, ticks_add_one]

/-- The unbounded loop goes on while the block is Running and stops with the first tick that does not leave it so (R196). -/
theorem hostLoop_of_ticks {n : Nat} {r : Run} {t : State}
    (running : ∀ k, k < n → ∃ u, ticks (k + 1) r.state = .next u ∧ u.runStatus = .running)
    (ended : ticks (n + 1) r.state = .next t) (stopped : t.runStatus ≠ .running) :
    ∃ r', hostLoop .unbounded (n + 1) r = some r' ∧ r'.ticks = r.ticks + (n + 1) ∧ r'.state = t := by
  induction n generalizing r with
  | zero =>
    have stepped : step r.state = .next t := (ticks_succ_of_ticks (ticks_zero r.state)).symm.trans ended
    exact ⟨_, hostLoop_succ.mpr ⟨_, round_some.mpr ⟨t, stepped, rfl⟩, .inl ⟨by simp [Run.stops, stopped], rfl⟩⟩, rfl, rfl⟩
  | succ n ih =>
    obtain ⟨u, ticked, goesOn⟩ := running 0 (Nat.succ_pos n)
    have stepped : step r.state = .next u := (ticks_succ_of_ticks (ticks_zero r.state)).symm.trans ticked
    obtain ⟨r', looped, count, state⟩ := ih (r := ⟨r.ticks + 1, u, r.events ++ [tickEvents r.state]⟩)
      (fun k hk => ticks_succ_of_step stepped (k + 1) ▸ running (k + 1) (Nat.succ_lt_succ hk))
      (ticks_succ_of_step stepped (n + 1) ▸ ended)
    exact ⟨r', hostLoop_succ.mpr ⟨_, round_some.mpr ⟨u, stepped, rfl⟩, .inr ⟨by simp [Run.stops, goesOn], looped⟩⟩,
      by rw [count, Nat.add_right_comm]; rfl, state⟩

/-- A run is as long as its ticks leave the block Running, and one more. -/
theorem runsFor_of_ticks {n : Nat} {s t : State}
    (running : ∀ k, k < n + 1 → ∃ u, ticks k s = .next u ∧ u.runStatus = .running ∧ u.cycle = k)
    (ended : ticks (n + 1) s = .next t) (terminated : t.runStatus = .terminated) (cycle : t.cycle = n + 1) :
    RunsFor (n + 1) s := by
  have goesOn (k : Nat) (hk : k < n) : ∃ u, ticks (k + 1) s = .next u ∧ u.runStatus = .running := by
    obtain ⟨u, ticked, running, -⟩ := running (k + 1) (Nat.succ_lt_succ hk)
    exact ⟨u, ticked, running⟩
  obtain ⟨r, looped, count, rfl⟩ := hostLoop_of_ticks (r := Run.start s) goesOn ended (by rw [terminated]; exact nofun)
  exact ⟨running, r, ⟨n + 1, looped⟩, by simpa using count, terminated, cycle⟩

/-! ### A loaded program -/

/-- Writing words from `a` up changes instruction memory only, and there the cells from `a` up, as many as there are words. -/
theorem writeWordsFrom_eq {ws : List Word} {a : Nat} {s t : State} (h : writeWordsFrom a ws s = .ok t) :
    t = { s with im := t.im } ∧
      ∀ b : ImAddr, t.ifetch b = if a ≤ b.val then (ws[b.val - a]?).getD (s.ifetch b) else s.ifetch b := by
  induction ws generalizing a s with
  | nil => cases h; exact ⟨rfl, fun b => by simp⟩
  | cons w ws ih =>
    unfold writeWordsFrom writeInstructionMemory at h
    by_cases inside : a < 1024
    · simp only [inside, ↓reduceDIte] at h
      obtain ⟨frame, cells⟩ := ih h
      refine ⟨by rw [frame]; rfl, fun b => ?_⟩
      rw [cells, ifetch_writeIm]
      simp only [Fin.ext_iff]
      rcases Nat.lt_trichotomy b.val a with below | same | above
      · rw [if_neg (by omega), if_neg (by omega), if_neg (by omega)]
      · subst same; simp
      · obtain ⟨k, at_k⟩ := Nat.exists_eq_add_of_lt above
        rw [at_k, if_pos (by omega), if_neg (by omega), if_pos (by omega), show a + k + 1 - (a + 1) = k by omega,
          show a + k + 1 - a = k + 1 by omega, List.getElem?_cons_succ]
    · simp [inside] at h

/-- What a reset and the load of the words `ws` leave, as far as a run reads it. -/
structure FreshlyLoaded (ws : List Word) (s : State) : Prop where
  running : s.runStatus = .running
  cycle : s.cycle = 0
  pcView : s.pcView = 0
  l2 : s.l2.payload = none
  l3 : s.l3.payload = none
  l4 : s.l4.payload = none
  code : ∀ a, s.ifetch a = (ws[a.val]?).getD sentinelWord

theorem freshlyLoaded_reset (m : State) : FreshlyLoaded [] (resetProcessor m) := ⟨rfl, rfl, rfl, rfl, rfl, rfl, fun _ => rfl⟩

theorem freshlyLoaded_of_loadProgram {ws : List Word} {m s : State} (h : loadProgram ws (resetProcessor m) = .ok s) :
    FreshlyLoaded ws s := by
  unfold loadProgram at h
  split at h
  · cases h
  · obtain ⟨frame, cells⟩ := writeWordsFrom_eq h
    have code (a : ImAddr) : s.ifetch a = (ws[a.val]?).getD sentinelWord := by rw [cells, if_pos (Nat.zero_le _)]; rfl
    rw [frame] at code ⊢
    exact ⟨rfl, rfl, rfl, rfl, rfl, rfl, code⟩

/-! ### Straight-line code neither squashes nor faults -/

/-- The record of a word of a straight-line program. -/
def IsStraight (r : DecodedRecord) : Prop := ∃ w, StraightLine w ∧ r = decodeRecord w

/-- A block that has not faulted, whose reachable instruction memory and latches hold straight-line words only. -/
structure Straight (s : State) : Prop where
  notFaulted : NotFaulted s
  code : ∀ a : Byte, s.ifetch (imAddrOf a) ≠ sentinelWord → StraightLine (s.ifetch (imAddrOf a))
  records : RecordsHold IsStraight s

section Straight

variable {s t : State}

theorem IsStraight.exec_ne_fault {r : DecodedRecord} (h : IsStraight r) (s : State) (e : Fault) :
    exec r.instr s ≠ .fault e := by
  obtain ⟨w, ⟨notSentinel, -, -, noFault⟩, rfl⟩ := h
  rw [← decode_of_ne notSentinel]
  exact noFault s e

theorem IsStraight.not_takesBranch {r : DecodedRecord} (h : IsStraight r) (s : State) : takesBranch r.instr s ≠ true := by
  obtain ⟨w, ⟨notSentinel, notBeqz, notBr, -⟩, rfl⟩ := h
  intro taken
  rw [← decode_of_ne notSentinel] at taken
  rcases instr_of_takesBranch taken with ⟨d, v, isBeqz, -⟩ | ⟨d, v, isBr⟩
  · exact notBeqz d v isBeqz
  · exact notBr d v isBr

theorem Straight.not_squashes (straight : Straight s) : ¬ Squashes s := fun squashes => by
  obtain ⟨r, occupied, taken⟩ := squashes_iff.mp squashes
  exact (straight.records.l4 r occupied).not_takesBranch s taken

theorem Straight.plainTick (straight : Straight s) (running : s.runStatus = .running) (stepped : step s = .next t) :
    PlainTick s t := by
  cases tick_of_step running stepped with
  | faulted r e occupied raised _ => exact absurd raised ((straight.records.l4 r occupied).exec_ne_fault _ e)
  | squashed _ squashes _ => exact absurd squashes straight.not_squashes
  | plain _ leaves => exact leaves

theorem Straight.step (straight : Straight s) (stepped : step s = .next t) : Straight t := by
  rcases step_next stepped with ⟨running, -⟩ | ⟨-, rfl⟩
  · have code := codeSame_of_step stepped
    refine ⟨fun e faulted => ?_, fun a => by rw [code]; exact straight.code a, ?_⟩
    · rw [(straight.plainTick running stepped).status] at faulted
      split at faulted <;> cases faulted
    · exact straight.records.tick (fun h => ⟨_, straight.code _ h, rfl⟩) (tick_of_step running stepped)
  · exact straight

theorem Straight.ticks {k : Nat} (straight : Straight s) (ticked : ticks k s = .next t) : Straight t := by
  induction k generalizing t with
  | zero => cases ticked; exact straight
  | succ k ih =>
    rw [ticks_add_one] at ticked
    obtain ⟨u, before, stepped⟩ := andThen_next ticked
    exact (ih before).step stepped

/-- The fetch never leaves the first 256 words (R63). -/
theorem FreshlyLoaded.straight {ws : List Word} (fresh : FreshlyLoaded ws s) (straight : ∀ w ∈ ws.take 256, StraightLine w) :
    Straight s where
  notFaulted := notFaulted_of_runStatus_eq_running fresh.running
  code a notSentinel := by
    rw [fresh.code] at notSentinel ⊢
    cases listed : ws[(imAddrOf a).val]? with
    | none => rw [listed] at notSentinel; exact absurd rfl notSentinel
    | some w =>
      have low : (imAddrOf a).val < 256 := a.isLt
      exact straight w (List.mem_of_getElem? ((List.getElem?_take_of_lt low).trans listed))
  records := ⟨holds_of_none fresh.l2, holds_of_none fresh.l3, holds_of_none fresh.l4⟩

end Straight

/-! ### The length of a run -/

theorem imAddrOf_ofNat {k : Nat} (low : k ≤ 255) : (imAddrOf (BitVec.ofNat 8 k)).val = k := by
  simp only [imAddrOf, BitVec.toNat_ofNat]; omega

theorem ofNat_add_one (k : Nat) : BitVec.ofNat 8 k + 1 = BitVec.ofNat 8 (k + 1) := (BitVec.ofNat_add k 1).symm

/-- After `k` ticks that fetched the words `0` to `k - 1` and took no branch. -/
structure Progress (ws : List Word) (k : Nat) (t : State) : Prop where
  running : t.runStatus = .running
  cycle : t.cycle = k
  pcView : t.pcView = BitVec.ofNat 8 k
  code : ∀ a, t.ifetch a = (ws[a.val]?).getD sentinelWord

section RunLength

variable {ws : List Word} {k : Nat} {s t u : State}

theorem FreshlyLoaded.progress (fresh : FreshlyLoaded ws s) : Progress ws 0 s :=
  ⟨fresh.running, fresh.cycle, fresh.pcView, fresh.code⟩

theorem Progress.fetchedWord (progress : Progress ws k t) (inside : k ≤ 255) :
    t.fetchedWord = (ws[k]?).getD sentinelWord := by
  rw [State.fetchedWord, progress.code, progress.pcView, imAddrOf_ofNat inside]

/-- A word fetched and not the sentinel keeps the run going (R112). -/
theorem PlainTick.running_of_ne (plain : PlainTick s t) (notSentinel : s.fetchedWord ≠ sentinelWord) :
    t.runStatus = .running := by
  rw [plain.status, if_neg]
  rw [allLatchesEmpty_iff, plain.l1, frontEnd_l1_of_ne notSentinel]
  exact fun empty => nomatch empty.1

/-- A tick that fetches a word leaves the block Running, with the next word to fetch. -/
theorem Progress.step (progress : Progress ws k t) (notSentinel : t.fetchedWord ≠ sentinelWord) (plain : ¬ Squashes t)
    (stepped : step t = .next u) (notFaulted : NotFaulted u) : Progress ws (k + 1) u := by
  have tick := tick_of_step progress.running stepped
  have moves := tick.of_not_squashes plain notFaulted
  refine ⟨moves.running_of_ne notSentinel, by rw [tick.cycle, progress.cycle], ?_,
    fun a => (codeSame_of_step stepped a).trans (progress.code a)⟩
  rw [moves.pcView, frontEnd_pcView_of_ne notSentinel, progress.pcView, ofNat_add_one]

/-- As long as there are words to fetch the ticks go on. -/
theorem Progress.ticks (start : Progress ws 0 s) (short : ws.length ≤ 255) (words : ∀ w ∈ ws, w ≠ sentinelWord)
    (plain : ∀ k t, k ≤ ws.length + 2 → Machine.ticks k s = .next t → ¬ Squashes t ∧ NotFaulted t) :
    k ≤ ws.length → ∃ t, Machine.ticks k s = .next t ∧ Progress ws k t := by
  induction k with
  | zero => exact fun _ => ⟨s, rfl, start⟩
  | succ k ih =>
    intro inside
    obtain ⟨t, ticked, progress⟩ := ih (by omega)
    obtain ⟨u, stepped⟩ := exists_step_of_running progress.running
    have ticked' : Machine.ticks (k + 1) s = .next u := (ticks_succ_of_ticks ticked).trans stepped
    have notSentinel : t.fetchedWord ≠ sentinelWord := by
      rw [progress.fetchedWord (by omega), List.getElem?_eq_getElem inside]
      exact words _ (List.getElem_mem _)
    exact ⟨u, ticked', progress.step notSentinel (plain k t (by omega) ticked).1 stepped
      (plain (k + 1) u (by omega) ticked').2⟩

/-- From the fetch of the last word on: two ticks take it to L4, and the third dispatches it and ends the run (R115, R124). -/
theorem ticks_from_last_word (running : s.runStatus = .running) (notSentinel : s.fetchedWord ≠ sentinelWord)
    (last : s.ifetch (imAddrOf (s.pcView + 1)) = sentinelWord)
    (plain : ∀ k t, k ≤ 3 → Machine.ticks k s = .next t → ¬ Squashes t ∧ NotFaulted t) :
    ∃ t u v, step s = .next t ∧ step t = .next u ∧ step u = .next v ∧ u.runStatus = .running ∧
      v.runStatus = .terminated ∧ u.l4 = ⟨some (decodeRecord s.fetchedWord), s.pcView⟩ := by
  obtain ⟨t, step1⟩ := exists_step_of_running running
  have ticks1 : Machine.ticks 1 s = .next t := step1 ▸ ticks_succ_of_ticks (ticks_zero s)
  obtain ⟨plain1, notFaulted1⟩ := plain 1 t (by omega) ticks1
  have moves1 := (tick_of_step running step1).of_not_squashes (plain 0 s (by omega) rfl).1 notFaulted1
  have running1 := moves1.running_of_ne notSentinel
  have fetched1 : t.fetchedWord = sentinelWord := by
    rw [fetchedWord_of_codeSame (codeSame_of_step step1), moves1.pcView, frontEnd_pcView_of_ne notSentinel, last]
  obtain ⟨u, step2⟩ := exists_step_of_running running1
  have ticks2 : Machine.ticks 2 s = .next u := step2 ▸ ticks_succ_of_ticks ticks1
  have notFaulted2 := (plain 2 u (by omega) ticks2).2
  have moves2 := (tick_of_step running1 step2).of_not_squashes plain1 notFaulted2
  have l2 : t.l2 = ⟨some (decodeRecord s.fetchedWord), s.pcView⟩ := by rw [moves1.l2, frontEnd_l2_of_ne notSentinel]
  have l4 : u.l4 = ⟨some (decodeRecord s.fetchedWord), s.pcView⟩ := by rw [moves2.l4_of_l2 (congrArg Latch.payload l2), l2]
  have notEnded : u.runStatus ≠ .terminated := by
    rw [((tick_of_step running1 step2).runStatus_of_sentinel running1 fetched1 notFaulted2).2 (by rw [l4]; exact nofun)]
    exact nofun
  obtain ⟨-, -, -, ended | ⟨running2, v, step3, ends⟩⟩ := sentinelDrainsThePipeline t u running1 fetched1 step2 notFaulted2
  · exact absurd ended notEnded
  · have ticks3 : Machine.ticks 3 s = .next v := step3 ▸ ticks_succ_of_ticks ticks2
    exact ⟨t, u, v, step1, step2, step3, running2, ends (plain 3 v (by omega) ticks3).2, l4⟩

/-- A program of words none of which squashes or faults in this run ends two ticks after the fetch of its last word. -/
theorem runsThrough_of_plain (fresh : FreshlyLoaded ws s) (nonempty : 1 ≤ ws.length) (short : ws.length ≤ 255)
    (words : ∀ w ∈ ws, w ≠ sentinelWord)
    (plain : ∀ k t, k ≤ ws.length + 2 → Machine.ticks k s = .next t → ¬ Squashes t ∧ NotFaulted t) :
    RunsThrough ws s := by
  have running (k : Nat) (hk : k ≤ ws.length) := fresh.progress.ticks short words plain hk
  obtain ⟨m, length⟩ : ∃ m, ws.length = m + 1 := ⟨ws.length - 1, by omega⟩
  have inside : m < ws.length := by omega
  obtain ⟨t, ticked, progress⟩ := running m (by omega)
  have lastWord : t.fetchedWord = ws[m] := by
    rw [progress.fetchedWord (by omega), List.getElem?_eq_getElem inside]; rfl
  have afterLast : t.ifetch (imAddrOf (t.pcView + 1)) = sentinelWord := by
    rw [progress.code, progress.pcView, ofNat_add_one, imAddrOf_ofNat (by omega), List.getElem?_eq_none (by omega)]; rfl
  obtain ⟨u, v, x, step1, step2, step3, running2, ended, l4⟩ := ticks_from_last_word progress.running
    (by rw [lastWord]; exact words _ (List.getElem_mem _)) afterLast
    fun k u hk hu => plain (m + k) u (by omega) ((ticks_add_of_ticks ticked k).trans hu)
  have ticks2 : Machine.ticks (ws.length + 1) s = .next v := by
    rw [length, ticks_succ_of_ticks ((ticks_succ_of_ticks ticked).trans step1), step2]
  have cycle2 : v.cycle = ws.length + 1 := by
    rw [step_cycle (running_of_step step2 running2) step2, step_cycle progress.running step1, progress.cycle, length]
  refine ⟨runsFor_of_ticks (fun k hk => ?_) ((ticks_succ_of_ticks ticks2).trans step3) ended
    (by rw [step_cycle running2 step3, cycle2]), fun w isLast => ⟨v, ticks2, ?_⟩⟩
  · obtain before | rfl : k ≤ ws.length ∨ k = ws.length + 1 := by omega
    · obtain ⟨t', ticked', progress'⟩ := running k before
      exact ⟨t', ticked', progress'.running, progress'.cycle⟩
    · exact ⟨v, ticks2, running2, cycle2⟩
  · have isWord : w = ws[m] := by
      rw [List.getLast?_eq_getElem?, length, Nat.add_sub_cancel, List.getElem?_eq_getElem inside] at isLast
      exact (Option.some.inj isLast).symm
    rw [l4, lastWord, progress.pcView, isWord, length, Nat.add_sub_cancel]

/-- With no word loaded the first tick fetches the sentinel and finds nothing to move. -/
theorem runsFor_one (fresh : FreshlyLoaded [] s) : RunsFor 1 s := by
  have straight : Straight s := fresh.straight (fun _ h => nomatch h)
  obtain ⟨t, stepped⟩ := exists_step_of_running fresh.running
  have ended := (tick_of_step fresh.running stepped).terminated_of_sentinel fresh.running
    (fresh.progress.fetchedWord (by omega)) fresh.l2 fresh.l3 (straight.step stepped).notFaulted
  refine runsFor_of_ticks (n := 0) (fun k hk => ?_) ((ticks_succ_of_ticks (ticks_zero s)).trans stepped) ended
    (by rw [step_cycle fresh.running stepped, fresh.cycle])
  obtain rfl : k = 0 := by omega
  exact ⟨s, rfl, fresh.running, fresh.cycle⟩

end RunLength

/-- The unbounded run of a block that every tick leaves Running does not stop. -/
theorem not_hostRuns_of_keeps {P : State → Prop} {s : State} (start : P s)
    (keeps : ∀ t u, P t → step t = .next u → P u) (running : ∀ t, P t → t.runStatus = .running) (r : Run) :
    ¬ HostRuns .unbounded s r := by
  rintro ⟨fuel, looped⟩
  have keepsRun (r r' : Run) (holds : P r.state) (round : r.round = some r') : P r'.state := by
    obtain ⟨u, stepped, rfl⟩ := round_some.mp round
    exact keeps _ _ holds stepped
  obtain ⟨holds, stops⟩ := hostLoop_induct (P := fun r => P r.state) keepsRun start looped
  simp [Run.stops, running _ holds] at stops

/-- A block that runs straight-line code and has no sentinel within reach: Running, and no tick changes that. -/
structure Endless (s : State) : Prop where
  running : s.runStatus = .running
  straight : Straight s
  code : ∀ a : Byte, s.ifetch (imAddrOf a) ≠ sentinelWord

theorem Endless.step {s t : State} (endless : Endless s) (stepped : step s = .next t) : Endless t where
  running := (endless.straight.plainTick endless.running stepped).running_of_ne (endless.code s.pcView)
  straight := endless.straight.step stepped
  code a := by rw [codeSame_of_step stepped]; exact endless.code a

/-- Settles O54. The four clauses: no word; words that cannot branch or fault, as a case of the next; words that do not in this
run; and 256 words, after which the fetch comes back to the first. -/
theorem straightLineRunLength : Obligations.StraightLineRunLength := by
  refine ⟨fun m => ⟨runsFor_one (freshlyLoaded_reset m), rfl⟩, fun ws m s nonempty short straightWords loaded => ?_,
    fun ws m s nonempty short words loaded => runsThrough_of_plain (freshlyLoaded_of_loadProgram loaded) nonempty short words,
    fun ws m s long straightWords loaded => ?_⟩
  · have fresh := freshlyLoaded_of_loadProgram loaded
    have straight := fresh.straight fun w hw => straightWords w (List.mem_of_mem_take hw)
    exact runsThrough_of_plain fresh nonempty short (fun w hw => (straightWords w hw).1) fun k t _ ticked =>
      ⟨(straight.ticks ticked).not_squashes, (straight.ticks ticked).notFaulted⟩
  · have fresh := freshlyLoaded_of_loadProgram loaded
    have code (a : Byte) : s.ifetch (imAddrOf a) ≠ sentinelWord := by
      have low : (imAddrOf a).val < 256 := a.isLt
      have listed := List.getElem?_eq_getElem (Nat.lt_of_lt_of_le low long)
      rw [fresh.code, listed]
      exact (straightWords _ (List.mem_of_getElem? ((List.getElem?_take_of_lt low).trans listed))).1
    exact not_hostRuns_of_keeps (P := Endless) ⟨fresh.running, fresh.straight straightWords, code⟩
      (fun _ _ => Endless.step) fun _ => Endless.running

end Sys2Proof.Machine

/-! PROOFS. Arithmetic (41_arith.md): the words, results, flags and frames of ADD, SUB and MUL, and which instruction may change
a flag. The lemmas on words, flags and frames hold of the other instructions too. -/

namespace Sys2Proof.Machine

open Sys2Proof

/-! ### Integers and bytes -/

/-- Read signed or unsigned, a byte is the same number modulo 256 (R11). -/
theorem toInt_modEq_toNat (a : Byte) : a.toInt ≡ (a.toNat : Int) [ZMOD 256] := by
  unfold Int.ModEq
  rw [BitVec.toInt_eq_toNat_cond]
  split <;> omega

/-- `u8` of a byte read signed is the byte read unsigned (R11). -/
theorem u8Int_toInt (a : Byte) : u8Int a.toInt = a.toNat := by
  have bound := a.isLt
  calc a.toInt % 256 = (a.toNat : Int) % 256 := toInt_modEq_toNat a
    _ = a.toNat := by omega

/-- `wrap8` depends on its argument modulo 256 only (R11). -/
theorem wrap8Int_congr {m n : Int} (h : m ≡ n [ZMOD 256]) : wrap8Int m = wrap8Int n :=
  congrArg (· - 128) (h.add_right 128)

theorem xInt_writeReg_same (s : State) (d : RegNum) (r : Byte) : xInt (s.writeReg d r) d = r.toInt := by
  simp [xInt]

/-! ### The conditions of the flags, and each group of flag updates read back -/

/-- The Carry condition in the words of R43. -/
theorem carryOf_iff (a b : Byte) : carryOf a b = true ↔ u8Int a.toInt + u8Int b.toInt > 255 := by
  rw [carryOf, decide_eq_true_iff, u8Int_toInt, u8Int_toInt]
  omega

/-- The Overflow condition of an addition in the words of R44. -/
theorem overflowAddOf_iff (a b r : Byte) :
    overflowAddOf a b r = true ↔
      (a.toInt > 0 ∧ b.toInt > 0 ∧ r.toInt < 0) ∨ (a.toInt < 0 ∧ b.toInt < 0 ∧ r.toInt > 0) := by
  simp [overflowAddOf, and_assoc]

/-- The Overflow condition of a subtraction in the words of R45. -/
theorem overflowSubOf_iff (a b r : Byte) :
    overflowSubOf a b r = true ↔
      (a.toInt < 0 ∧ b.toInt > 0 ∧ r.toInt > 0) ∨ (a.toInt > 0 ∧ b.toInt < 0 ∧ r.toInt < 0) := by
  simp [overflowSubOf, and_assoc]

/-- ADD's row of R133. -/
theorem flag_addFlags (a b r : Byte) (s : State) (f : Flag) :
    (addFlags a b r s).flag f =
      match f with
      | .C => carryOf a b
      | .V => overflowAddOf a b r
      | .N => decide (r.toInt < 0)
      | .S | .Z => decide (r.toInt = 0) := by
  cases f <;> simp [addFlags, updateCarry, updateOverflowAdd, updateNegative, updateSign, updateZero]

/-- SUB's row of R133. -/
theorem flag_subFlags (a b r : Byte) (s : State) (f : Flag) :
    (subFlags a b r s).flag f =
      match f with
      | .C => s.flag .C
      | .V => overflowSubOf a b r
      | .N => decide (r.toInt < 0)
      | .S | .Z => decide (r.toInt = 0) := by
  cases f <;> simp [subFlags, updateOverflowSub, updateNegative, updateSign, updateZero]

/-- The row of R133 that MUL, ANDI, EOR, SAL and SAR share. -/
theorem flag_nzFlags (r : Byte) (s : State) (f : Flag) :
    (nzFlags r s).flag f =
      match f with
      | .N => decide (r.toInt < 0)
      | .Z => decide (r.toInt = 0)
      | .C | .V | .S => s.flag f := by
  cases f <;> simp [nzFlags, updateNegative, updateZero]

/-! ### The flags an instruction leaves -/

theorem subFlags_flag_of_not_mem {f : Flag} (h : f ∉ [Flag.V, .N, .S, .Z]) (a b r : Byte) (s : State) :
    (subFlags a b r s).flag f = s.flag f := by
  rw [flag_subFlags]
  cases f <;> simp_all

theorem nzFlags_flag_of_not_mem {f : Flag} (h : f ∉ [Flag.N, .Z]) (r : Byte) (s : State) :
    (nzFlags r s).flag f = s.flag f := by
  rw [flag_nzFlags]
  cases f <;> simp_all

/-- ADD, SUB, MUL and EOR leave a flag that their flag updates leave. -/
theorem registerOp_flag {result : Byte → Byte → Byte} {flags : Byte → Byte → Byte → State → State} {d : RegNum}
    {v : Value2} {s t : State} {f : Flag} (kept : ∀ a b r, (flags a b r s).flag f = s.flag f)
    (h : registerOp result flags d v s = .next t) : t.flag f = s.flag f := by
  obtain ⟨i, -, rfl⟩ := registerOp_next h
  exact kept _ _ _

/-- SAL and SAR leave every flag but N and Z. -/
theorem shiftOp_flag {result : Byte → Nat → Byte} {d : RegNum} {v : Value2} {s t : State} {f : Flag}
    (notListed : f ∉ [Flag.N, .Z]) (h : shiftOp result d v s = .next t) : t.flag f = s.flag f := by
  obtain ⟨n, -, rfl⟩ := shiftOp_next h
  exact nzFlags_flag_of_not_mem notListed _ s

/-- An instruction leaves every flag that its row of R133 does not list (R50). -/
theorem exec_flag_of_not_mem {i : Instr} {s t : State} {f : Flag} (h : exec i s = .next t) (notListed : f ∉ flagsUpdated i) :
    t.flag f = s.flag f := by
  cases i with
  | add d v => cases f <;> simp [flagsUpdated] at notListed
  | sub d v => exact registerOp_flag (fun a b r => subFlags_flag_of_not_mem notListed a b r s) h
  | mul d v => exact registerOp_flag (fun _ _ r => nzFlags_flag_of_not_mem notListed r s) h
  | eor d v => exact registerOp_flag (fun _ _ r => nzFlags_flag_of_not_mem notListed r s) h
  | andi d v => cases h; exact nzFlags_flag_of_not_mem notListed _ s
  | sal d v => exact shiftOp_flag notListed h
  | sar d v => exact shiftOp_flag notListed h
  | movi d v => cases h; rfl
  | ldr d v => obtain ⟨ea, -, rfl⟩ := execLdr_next h; rfl
  | str d v => obtain ⟨ea, -, rfl⟩ := execStr_next h; rfl
  | beqz d v => obtain ⟨-, rfl⟩ | ⟨-, rfl⟩ := execBeqz_next h <;> rfl
  | br d v => obtain ⟨j, -, rfl⟩ := execBr_next (d := d) h; rfl
  | reserved12 | reserved13 | reserved14 | reserved15 | sentinel => cases h; rfl

theorem exec_flagsSameBut {i : Instr} {s t : State} (h : exec i s = .next t) : FlagsSameBut (flagsUpdated i) s t :=
  ⟨fun _ => exec_flag_of_not_mem h, fun _ => exec_sr_high h⟩

/-! ### The frame of an instruction with a destination register -/

theorem WritesRegister.regsSameBut {d : RegNum} {s t : State} (writes : WritesRegister d s t) : RegsSameBut [d] s t := by
  obtain ⟨x, r, -, rfl⟩ := writes
  intro i other
  rw [readReg_writeReg, if_neg (fun same => other (by simp [same]))]
  rfl

theorem WritesRegister.controlSame {d : RegNum} {s t : State} (writes : WritesRegister d s t) : ControlSame s t := by
  obtain ⟨x, r, -, rfl⟩ := writes
  exact ⟨rfl, rfl, rfl, rfl, rfl, rfl, rfl, rfl, rfl, rfl⟩

theorem WritesRegister.dataSame {d : RegNum} {s t : State} (writes : WritesRegister d s t) : DataSameBut [] s t := by
  obtain ⟨x, r, -, rfl⟩ := writes
  exact fun _ _ => rfl

/-- Writing a register with the value it holds changes nothing. -/
theorem WritesRegister.refl (d : RegNum) (s : State) : WritesRegister d s s :=
  ⟨s.sr, s.readReg d, fun _ _ => rfl, by simp [State.writeReg, State.readReg]⟩

/-- An instruction with a destination register writes it, whatever the value (R22). -/
theorem exec_writesRegister {i : Instr} {d : RegNum} {s t : State} (h : exec i s = .next t) (dest : destReg i = some d) :
    WritesRegister d s t := by
  cases exec_effect h with
  | register d' dest' writes =>
    obtain rfl : d' = d := Option.some.inj (dest'.symm.trans dest)
    exact writes
  | store _ _ _ isStr => subst isStr; cases dest
  | branch _ isTaken => obtain ⟨_, _, rfl, -⟩ | ⟨_, _, rfl⟩ := instr_of_takesBranch isTaken <;> cases dest
  | nothing same => subst same; exact .refl d t
  | sentinel isSentinel => subst isSentinel; cases dest

/-- It leaves every other register, the flags its row of R133 does not list, both memories, the PC, the latches and the
bookkeeping. -/
theorem exec_frame_of_destReg {i : Instr} {d : RegNum} {s t : State} (h : exec i s = .next t) (dest : destReg i = some d) :
    RegsSameBut [d] s t ∧ FlagsSameBut (flagsUpdated i) s t ∧ DataSameBut [] s t ∧ CodeSame s t ∧ ControlSame s t :=
  have writes := exec_writesRegister h dest
  ⟨writes.regsSameBut, exec_flagsSameBut h, writes.dataSame, codeSame_of_im (exec_im h), writes.controlSame⟩

/-! ### The word and the second register -/

/-- The word of any opcode but 15 decodes by that opcode; only opcode 15 spells the sentinel (R88, R90). -/
theorem encodedAs_instrOf {op : Opcode} (h : op ≠ 15) (d : RegNum) (v : Value2) :
    EncodedAs op (typeOf op) d v (instrOf op d v) := by
  have notSentinel : packWord op d v ≠ sentinelWord := fun same => h (packWord_eq_sentinelWord_iff.mp same).1
  have record := decodeRecord_packWord op d v
  exact ⟨decode_packWord notSentinel, record, by rw [record, DecodedRecord.instr]⟩

/-- `regIndex2` faults where R92 says so. -/
theorem regIndex2_of_sourceFaults {s : State} {v : Value2} (h : SourceFaults s v) :
    regIndex2 s.v2RegIndex v = .error .v2RegIndexNegative := by
  obtain ⟨negative, isFault⟩ := h
  rw [regIndex2, dif_neg (not_le.mpr negative), isFault]

/-- ADD, SUB, MUL and EOR with a second register. -/
theorem registerOp_of_sourceIndex {s : State} {v : Value2} {i : RegNum} (h : SourceIndex s v i)
    (result : Byte → Byte → Byte) (flags : Byte → Byte → Byte → State → State) (d : RegNum) :
    registerOp result flags d v s =
      .next ((flags (s.readReg d) (s.readReg i) (result (s.readReg d) (s.readReg i)) s).writeReg d
        (result (s.readReg d) (s.readReg i))) := by
  rw [registerOp, regIndex2_of_sourceIndex h]

/-- ADD, SUB, MUL and EOR with none. -/
theorem registerOp_of_sourceFaults {s : State} {v : Value2} (h : SourceFaults s v)
    (result : Byte → Byte → Byte) (flags : Byte → Byte → Byte → State → State) (d : RegNum) :
    registerOp result flags d v s = .fault .v2RegIndexNegative := by
  rw [registerOp, regIndex2_of_sourceFaults h]

/-! ### The rows of R133, read by flag -/

theorem instr_of_carry_mem {i : Instr} (h : Flag.C ∈ flagsUpdated i) : ∃ d v, i = .add d v := by
  cases i with
  | add d v => exact ⟨d, v, rfl⟩
  | _ => simp [flagsUpdated] at h

theorem instr_of_overflow_or_sign_mem {i : Instr} (h : Flag.V ∈ flagsUpdated i ∨ Flag.S ∈ flagsUpdated i) :
    ∃ d v, i = .add d v ∨ i = .sub d v := by
  cases i with
  | add d v | sub d v => exact ⟨d, v, by simp⟩
  | _ => simp [flagsUpdated] at h

theorem instr_of_negative_or_zero_mem {i : Instr} (h : Flag.N ∈ flagsUpdated i ∨ Flag.Z ∈ flagsUpdated i) :
    ∃ d v, i = .add d v ∨ i = .sub d v ∨ i = .mul d v ∨ i = .andi d v ∨ i = .eor d v ∨ i = .sal d v ∨ i = .sar d v := by
  cases i with
  | add d v | sub d v | mul d v | andi d v | eor d v | sal d v | sar d v => exact ⟨d, v, by simp⟩
  | _ => simp [flagsUpdated] at h

/-! ### The obligations -/

/-- Settles O8: the result wraps the integer sum, each flag has its own condition, and the frame is that of an instruction with
a destination register. -/
theorem addMeaning : Obligations.AddMeaning := by
  intro d v s
  refine ⟨encodedAs_instrOf (by decide) d v, fun i source => ?_, fun faults => registerOp_of_sourceFaults faults _ _ d⟩
  have answer : exec (.add d v) s = _ := registerOp_of_sourceIndex source addResult addFlags d
  refine ⟨_, answer, ?_⟩
  simp only [xInt_writeReg_same, flag_writeReg, flag_addFlags]
  exact ⟨wrap8_toInt _, carryOf_iff _ _, overflowAddOf_iff _ _ _, decide_eq_true_iff, decide_eq_true_iff, decide_eq_true_iff,
    exec_frame_of_destReg answer rfl⟩

/-- Settles O9: as ADD, with the difference; C is in the frame. -/
theorem subMeaning : Obligations.SubMeaning := by
  intro d v s
  refine ⟨encodedAs_instrOf (by decide) d v, fun i source => ?_, fun faults => registerOp_of_sourceFaults faults _ _ d⟩
  have answer : exec (.sub d v) s = _ := registerOp_of_sourceIndex source subResult subFlags d
  refine ⟨_, answer, ?_⟩
  simp only [xInt_writeReg_same, flag_writeReg, flag_subFlags]
  exact ⟨wrap8_toInt _, overflowSubOf_iff _ _ _, decide_eq_true_iff, decide_eq_true_iff, decide_eq_true_iff,
    exec_frame_of_destReg answer rfl⟩

/-- Settles O10: as ADD, with the product; C, V and S are in the frame. -/
theorem mulMeaning : Obligations.MulMeaning := by
  intro d v s
  refine ⟨encodedAs_instrOf (by decide) d v, fun i source => ?_,
    fun faults => registerOp_of_sourceFaults faults mulResult (fun _ _ r => nzFlags r) d⟩
  have answer : exec (.mul d v) s = _ := registerOp_of_sourceIndex source mulResult (fun _ _ r => nzFlags r) d
  refine ⟨_, answer, ?_⟩
  simp only [xInt_writeReg_same, flag_writeReg, flag_nzFlags]
  exact ⟨wrap8_toInt _, decide_eq_true_iff, decide_eq_true_iff, exec_frame_of_destReg answer rfl⟩

/-- Settles O11: the operands read unsigned are congruent to those read signed, and so are the products (R132). -/
theorem mulIgnoresSignedness : Obligations.MulIgnoresSignedness := by
  intro a b
  have signed : (mulResult a b).toInt = wrap8Int (a.toInt * b.toInt) := wrap8_toInt _
  exact ⟨signed, signed.trans (wrap8Int_congr ((toInt_modEq_toNat a).mul (toInt_modEq_toNat b)))⟩

/-- Settles O34: a flag that an instruction changes stands in its row of R133. -/
theorem flagsChangeOnlyByTheTable : Obligations.FlagsChangeOnlyByTheTable := by
  intro i s t h
  have listed {f : Flag} (changed : t.flag f ≠ s.flag f) : f ∈ flagsUpdated i :=
    by_contra fun notListed => changed (exec_flag_of_not_mem h notListed)
  exact ⟨fun changed => instr_of_carry_mem (listed changed),
    fun changed => instr_of_overflow_or_sign_mem (changed.imp listed listed),
    fun changed => instr_of_negative_or_zero_mem (changed.imp listed listed)⟩

end Sys2Proof.Machine

/-! PROOFS. Logic and shifts (42_logic_shift.md): the words, results, flags and frames of ANDI, EOR and SAL, and the two shifts as
shifts of bits. The lemmas on the shift count and on N and Z hold of SAR too. -/

namespace Sys2Proof.Machine

open Sys2Proof

/-! ### The results, bit by bit -/

/-- The immediate repeats bit 5 of `value2` in bits 6 and 7 (R83, R140). -/
theorem getLsbD_immediate (v : Value2) {b : Nat} (inByte : b < 8) : (immediate v).getLsbD b = v.getLsbD (min b 5) := by
  rw [immediate, BitVec.getLsbD_signExtend, decide_eq_true inByte, Bool.true_and]
  split
  case isTrue inField => rw [Nat.min_eq_left (by omega)]
  case isFalse above => rw [Nat.min_eq_right (by omega), BitVec.msb_eq_getLsbD_last]

/-- R140, bit by bit. -/
theorem getLsbD_andResult_immediate (x : Byte) (v : Value2) {b : Nat} (inByte : b < 8) :
    (andResult x (immediate v)).getLsbD b = true ↔ x.getLsbD b = true ∧ v.getLsbD (min b 5) = true := by
  rw [andResult, BitVec.getLsbD_and, getLsbD_immediate v inByte, Bool.and_eq_true]

/-- R141, bit by bit. -/
theorem getLsbD_eorResult (x y : Byte) (b : Nat) : (eorResult x y).getLsbD b = true ↔ x.getLsbD b ≠ y.getLsbD b := by
  rw [eorResult, BitVec.getLsbD_xor, Bool.xor_iff_ne]

/-! ### The shifts as shifts of bits -/

/-- SAL's product, wrapped, is the left shift: both multiply the byte by `2^n` modulo 256 (R142). -/
theorem salResult_eq_shiftLeft (x : Byte) (n : Nat) : salResult x n = x <<< n := by
  have power : BitVec.ofInt 8 (2 ^ n) = BitVec.twoPow 8 n := by
    apply BitVec.eq_of_toNat_eq
    rw [BitVec.toNat_twoPow, BitVec.toNat_ofInt]
    norm_cast
  calc salResult x n = BitVec.ofInt 8 x.toInt * BitVec.ofInt 8 (2 ^ n) := BitVec.ofInt_mul _ _
    _ = x * BitVec.twoPow 8 n := by rw [BitVec.ofInt_toInt, power]
    _ = x <<< n := (BitVec.shiftLeft_eq_mul_twoPow x n).symm

/-- SAR's quotient rounds down, as the right shift that repeats the sign does (R143, D9). -/
theorem sarResult_eq_sshiftRight (x : Byte) (n : Nat) : sarResult x n = x.sshiftRight n := by
  have floor : Int.fdiv x.toInt (2 ^ n) = (x.sshiftRight n).toInt := by
    rw [BitVec.toInt_sshiftRight, Int.shiftRight_eq_div_pow, Int.fdiv_eq_ediv_of_nonneg _ (by positivity)]
    norm_cast
  rw [sarResult, floor, wrap8, BitVec.ofInt_toInt]

/-! ### The shift count -/

/-- SAL and SAR with a count of 0 to 31 (R144). -/
theorem shiftOp_of_nonneg {v : Value2} (h : 0 ≤ value2Int v) (result : Byte → Nat → Byte) (d : RegNum) (s : State) :
    shiftOp result d v s = .next (writeResultNz d (result (s.readReg d) (value2Int v).toNat) s) := by
  rw [shiftOp, shiftCount, if_pos h]

/-- SAL and SAR with a negative count (R144, D8). -/
theorem shiftOp_of_neg {v : Value2} (h : value2Int v < 0) (result : Byte → Nat → Byte) (d : RegNum) (s : State) :
    shiftOp result d v s = .fault .shiftCountNegative := by
  rw [shiftOp, shiftCount, if_neg (not_le.mpr h)]

/-! ### A result written with N and Z -/

theorem readReg_writeResultNz_same (d : RegNum) (r : Byte) (s : State) : (writeResultNz d r s).readReg d = r := by
  simp [writeResultNz]

theorem xInt_writeResultNz_same (d : RegNum) (r : Byte) (s : State) : xInt (writeResultNz d r s) d = r.toInt :=
  xInt_writeReg_same _ d r

theorem flag_writeResultNz_negative (d : RegNum) (r : Byte) (s : State) :
    (writeResultNz d r s).flag .N = true ↔ xInt (writeResultNz d r s) d < 0 := by
  rw [xInt_writeResultNz_same, writeResultNz, flag_writeReg, flag_nzFlags, decide_eq_true_iff]

theorem flag_writeResultNz_zero (d : RegNum) (r : Byte) (s : State) :
    (writeResultNz d r s).flag .Z = true ↔ xInt (writeResultNz d r s) d = 0 := by
  rw [xInt_writeResultNz_same, writeResultNz, flag_writeReg, flag_nzFlags, decide_eq_true_iff]

/-- An instruction of the N and Z row of R133 that writes a result to its destination register: what N and Z then say, and
everything it leaves unchanged. -/
theorem exec_nz_frame {i : Instr} {d : RegNum} {r : Byte} {s t : State} (written : t = writeResultNz d r s)
    (answer : exec i s = .next t) (dest : destReg i = some d) (row : flagsUpdated i = [.N, .Z]) :
    (t.flag .N = true ↔ xInt t d < 0) ∧ (t.flag .Z = true ↔ xInt t d = 0) ∧
      RegsSameBut [d] s t ∧ FlagsSameBut [.N, .Z] s t ∧ DataSameBut [] s t ∧ CodeSame s t ∧ ControlSame s t := by
  subst written
  exact ⟨flag_writeResultNz_negative d r s, flag_writeResultNz_zero d r s, row ▸ exec_frame_of_destReg answer dest⟩

/-! ### The obligations -/

/-- Settles O13: the sign-extended immediate is read bit by bit; no operand makes ANDI fault. -/
theorem andiMeaning : Obligations.AndiMeaning := by
  intro d v s
  refine ⟨encodedAs_instrOf (by decide) d v, _, rfl, fun b inByte => ?_, exec_nz_frame (i := .andi d v) rfl rfl rfl rfl⟩
  rw [readReg_writeResultNz_same]
  exact getLsbD_andResult_immediate _ v inByte

/-- Settles O14: with a second register EOR writes the exclusive or of the two, N and Z; with none it faults. -/
theorem eorMeaning : Obligations.EorMeaning := by
  intro d v s
  refine ⟨encodedAs_instrOf (by decide) d v, fun i source => ?_,
    fun faults => registerOp_of_sourceFaults faults eorResult (fun _ _ r => nzFlags r) d⟩
  have answer : exec (.eor d v) s = .next (writeResultNz d (eorResult (s.readReg d) (s.readReg i)) s) :=
    registerOp_of_sourceIndex source eorResult (fun _ _ r => nzFlags r) d
  refine ⟨_, answer, fun b _ => ?_, exec_nz_frame rfl answer rfl rfl⟩
  rw [readReg_writeResultNz_same]
  exact getLsbD_eorResult _ _ b

/-- Settles O15: a count of 0 to 31 gives the wrapped product, a negative one the fault. -/
theorem salMeaning : Obligations.SalMeaning := by
  intro d v s
  refine ⟨encodedAs_instrOf (by decide) d v, fun nonneg => ?_, fun negative => shiftOp_of_neg negative salResult d s⟩
  have answer : exec (.sal d v) s = .next (writeResultNz d (salResult (s.readReg d) (value2Int v).toNat) s) :=
    shiftOp_of_nonneg nonneg salResult d s
  refine ⟨_, answer, ?_, exec_nz_frame rfl answer rfl rfl⟩
  rw [xInt_writeResultNz_same]
  exact wrap8_toInt _

/-- Settles O18: a product modulo 256 is a left shift, and a quotient rounded down is a right shift that repeats the sign. -/
theorem shiftsAreBitShifts : Obligations.ShiftsAreBitShifts := fun x n =>
  ⟨salResult_eq_shiftLeft x n, sarResult_eq_sshiftRight x n⟩

end Sys2Proof.Machine

/-! PROOFS. Move and memory (43_move_mem.md): the words, results, frames and faults of MOVI, LDR and STR. -/

namespace Sys2Proof.Machine

open Sys2Proof

/-! ### The operands -/

/-- Sign extension keeps the number: as an `int8` the immediate is value2 (R83, R150). -/
theorem toInt_immediate (v : Value2) : (immediate v).toInt = value2Int v :=
  BitVec.toInt_signExtend_of_le (by decide)

/-- `dataAddress` answers the one address that is value2 as a number (R153). -/
theorem dataAddress_of_eq_value2Int {v : Value2} {ea : DmAddr} (h : (ea.val : Int) = value2Int v) :
    dataAddress v = .ok ea := by
  obtain ⟨ea', formed⟩ := dataAddress_of_nonneg (v := v) (by omega)
  have atValue := (dataAddress_ok formed).1
  obtain rfl : ea' = ea := Fin.ext (by omega)
  exact formed

/-! ### STR, the one instruction here without a destination register -/

/-- STR at an address that is formed (R152). -/
theorem exec_str_of_ok {v : Value2} {ea : DmAddr} (h : dataAddress v = .ok ea) (d : RegNum) (s : State) :
    exec (.str d v) s = .next (s.memWrite ea (s.readReg d)) := by
  change execStr d v s = _
  rw [execStr, h]

theorem memWrite_dataSameBut (s : State) (ea : DmAddr) (x : Byte) : DataSameBut [ea] s (s.memWrite ea x) := by
  intro a other
  rw [memRead_memWrite, if_neg (fun same => other (by simp [same]))]

/-- A store leaves every register, the status register, instruction memory and what `ControlSame` lists (R152). -/
theorem memWrite_frame (s : State) (ea : DmAddr) (x : Byte) :
    RegsSameBut [] s (s.memWrite ea x) ∧ FlagsSameBut [] s (s.memWrite ea x) ∧ CodeSame s (s.memWrite ea x) ∧
      ControlSame s (s.memWrite ea x) :=
  ⟨fun i _ => readReg_memWrite s ea x i, ⟨fun f _ => flag_memWrite s ea x f, fun _ _ => by rw [memWrite_sr]⟩,
    ifetch_memWrite s ea x, rfl, rfl, rfl, rfl, rfl, rfl, rfl, rfl, rfl, rfl⟩

/-! ### The obligations -/

/-- Settles O19: no operand makes MOVI fault, and its row of R133 lists no flag. -/
theorem moviMeaning : Obligations.MoviMeaning := by
  intro d v s
  have answer : exec (.movi d v) s = .next (s.writeReg d (immediate v)) := rfl
  refine ⟨encodedAs_instrOf (by decide) d v, _, answer, ?_, exec_frame_of_destReg answer rfl⟩
  rw [xInt_writeReg_same, toInt_immediate]

/-- Settles O20: an address equal to value2 is the one LDR forms; a negative value2 forms none. -/
theorem ldrMeaning : Obligations.LdrMeaning := by
  intro d v s
  refine ⟨encodedAs_instrOf (by decide) d v, fun ea atValue => ?_,
    fun negative => exec_ldr_of_error (dataAddress_of_neg negative) d s⟩
  have answer := exec_ldr_of_ok (dataAddress_of_eq_value2Int atValue) d s
  refine ⟨_, answer, ?_, exec_frame_of_destReg answer rfl⟩
  rw [readReg_writeReg, if_pos rfl]

/-- Settles O21: STR writes the cell at the address it forms, and only that. -/
theorem strMeaning : Obligations.StrMeaning := by
  intro d v s
  refine ⟨encodedAs_instrOf (by decide) d v, fun ea formed => ?_,
    fun negative => exec_str_of_error (dataAddress_of_neg negative) d s⟩
  refine ⟨_, exec_str_of_ok formed d s, (dataAddress_ok formed).1, ?_, memWrite_dataSameBut s ea _, memWrite_frame s ea _⟩
  rw [memRead_memWrite, if_pos rfl]

end Sys2Proof.Machine


/-! PROOFS. Control transfer and the reserved opcodes (44_control.md): the words, targets, squashes, frames and faults of BEQZ and
BR, and the opcodes that do nothing. -/

namespace Sys2Proof.Machine

open Sys2Proof

/-! ### BEQZ that is not taken, and BR without a second register -/

/-- BEQZ of a register that is not zero (R160). -/
theorem exec_beqz_of_ne_zero {d : RegNum} {s : State} (h : s.readReg d ≠ 0) (v : Value2) :
    exec (.beqz d v) s = .next s := by
  change execBeqz d v s = _
  rw [execBeqz, if_neg h]

/-- BR with no second register (R161, D6). -/
theorem exec_br_of_sourceFaults {s : State} {v : Value2} (h : SourceFaults s v) (d : RegNum) :
    exec (.br d v) s = .fault .v2RegIndexNegative := by
  change execBr d v s = _
  rw [execBr, regIndex2_of_sourceFaults h]

/-! ### A taken branch -/

/-- A register is 0 as an `int8` when its byte is. -/
theorem xInt_eq_zero_iff {s : State} {d : RegNum} : xInt s d = 0 ↔ s.readReg d = 0 :=
  BitVec.toInt_inj (y := 0)

/-- The target of a taken BEQZ as a number (R160). -/
theorem branchTarget_toNat (pc : Byte) (v : Value2) :
    ((branchTarget pc v).toNat : Int) = ((pc.toNat : Int) + value2Int v - 1) % 256 := by
  rw [branchTarget, BitVec.toNat_ofInt]
  omega

/-- The PC that a taken branch leaves (R109). -/
@[simp] theorem pcView_takeBranch (target : Byte) (s : State) : (takeBranch target s).pcView = target := by
  rw [takeBranch, pcView_squash, pcView_setPc]

/-- A taken branch squashes L2, L3 and L4 (R108) and leaves L1, the bookkeeping, the registers, the flags and both memories. -/
theorem takeBranch_frame (target : Byte) (s : State) :
    (takeBranch target s).l2 = ⟨none, 0⟩ ∧ (takeBranch target s).l3 = ⟨none, 0⟩ ∧ (takeBranch target s).l4 = ⟨none, 0⟩ ∧
      (takeBranch target s).l1 = s.l1 ∧ (takeBranch target s).cycle = s.cycle ∧
      (takeBranch target s).runStatus = s.runStatus ∧ (takeBranch target s).v2RegIndex = s.v2RegIndex ∧
      RegsSameBut [] s (takeBranch target s) ∧ FlagsSameBut [] s (takeBranch target s) ∧
      DataSameBut [] s (takeBranch target s) ∧ CodeSame s (takeBranch target s) :=
  ⟨squash_l2 _, squash_l3 _, squash_l4 _, rfl, rfl, rfl, rfl, fun i _ => readReg_setPc s target i,
    ⟨fun f _ => flag_setPc s target f, fun _ _ => rfl⟩, fun a _ => memRead_setPc s target a, ifetch_setPc s target⟩

/-! ### The reserved opcodes -/

theorem opcode_of_twelve_le {op : Opcode} (h : 12 ≤ op.toNat) : op = 12 ∨ op = 13 ∨ op = 14 ∨ op = 15 := by
  bv_omega

/-- The reserved opcodes have type R (R86, R162). -/
theorem typeOf_of_twelve_le {op : Opcode} (h : 12 ≤ op.toNat) : typeOf op = .R := by
  rcases opcode_of_twelve_le h with rfl | rfl | rfl | rfl <;> rfl

/-- An instruction that a reserved opcode selects leaves the state as it is (R162). -/
theorem exec_instrOf_of_twelve_le {op : Opcode} (h : 12 ≤ op.toNat) (d : RegNum) (v : Value2) (s : State) :
    exec (instrOf op d v) s = .next s := by
  rcases opcode_of_twelve_le h with rfl | rfl | rfl | rfl <;> rfl

/-! ### The obligations -/

/-- Settles O27: BEQZ takes the branch to its target where the register is 0, and does nothing elsewhere. -/
theorem beqzMeaning : Obligations.BeqzMeaning := by
  intro d v s
  refine ⟨encodedAs_instrOf (by decide) d v, fun zero => ?_,
    fun nonzero => exec_beqz_of_ne_zero (mt xInt_eq_zero_iff.mpr nonzero) v⟩
  refine ⟨_, exec_beqz_of_zero (xInt_eq_zero_iff.mp zero) v, ?_, takeBranch_frame _ s⟩
  rw [pcView_takeBranch, branchTarget_toNat]

/-- Settles O28: with a second register BR takes the branch to that register read unsigned; with none it faults. -/
theorem brMeaning : Obligations.BrMeaning := by
  intro d v s
  refine ⟨encodedAs_instrOf (by decide) d v, fun i source => ?_, fun faults => exec_br_of_sourceFaults faults d⟩
  refine ⟨_, exec_br_of_sourceIndex source d, ?_, takeBranch_frame _ s⟩
  rw [pcView_takeBranch, xInt, u8Int_toInt]

/-- Settles O29: a word of a reserved opcode other than the sentinel dispatches as that opcode with its fields. -/
theorem reservedOpcodesDoNothing : Obligations.ReservedOpcodesDoNothing := by
  refine ⟨fun w reserved notSentinel => ?_, fun _ _ _ => ⟨rfl, rfl, rfl, rfl⟩⟩
  have dispatches : decode w = (decodeRecord w).instr := decode_of_ne notSentinel
  refine ⟨typeOf_of_twelve_le reserved, dispatches, fun s => ?_⟩
  rw [dispatches]
  exact exec_instrOf_of_twelve_le reserved _ _ s

end Sys2Proof.Machine

/-! PROOFS. The observability port (60_exceptions.md): the records of a tick by the step that causes them, the stream of a tick, and
the stream of a run. -/

namespace Sys2Proof.Machine

open Sys2Proof

/-! ### The records of one tick -/

/-- The state the fetch-step of the tick leaves, which the decode-step runs in (R102, R103). -/
def afterFetch (s : State) : State :=
  if s.fetchedWord = sentinelWord then s.countTick.vacateL1 else s.countTick.latchFetched

theorem fetchStep_countTick (s : State) : fetchStep s.countTick = .next (afterFetch s) := fetchStep_eq s.countTick

theorem decodeStep_afterFetch (s : State) : decodeStep (afterFetch s) = frontEnd s := rfl

@[simp] theorem afterFetch_cycle (s : State) : (afterFetch s).cycle = s.cycle + 1 := by
  unfold afterFetch; split <;> rfl

section TickRecords

variable {s t : State} {i : Instr} {e : Event}

/-- The records of a tick, each list from the state that its step runs in (R180). -/
theorem tickEvents_of_step (running : s.runStatus = .running) (stepped : step s = .next t) :
    tickEvents s =
      { fetch := fetchEvents s.countTick
        maybeFetch := maybeFetchEvents s.countTick
        decode := decodeEvents (afterFetch s)
        execute := executeEvents (frontEnd s)
        ending := endingEvents t } := by
  rw [step_of_running running] at stepped
  simp only [tickEvents, running, fetchStep_countTick, decodeStep_afterFetch, stepped]

/-- A block that is not Running takes no tick and emits nothing (R172, R184). -/
theorem tickEvents_of_not_running (stopped : s.runStatus ≠ .running) : tickEvents s = noEvents := by
  unfold tickEvents
  cases status : s.runStatus with
  | running => exact absurd status stopped
  | terminated => rfl
  | faulted e => rfl

theorem executeEvents_of_none (empty : s.l4.payload = none) : executeEvents s = [] := by
  unfold executeEvents; rw [empty]

theorem executeEvents_of_next {r : DecodedRecord} (occupied : s.l4.payload = some r)
    (dispatched : exec r.instr s = .next t) :
    executeEvents s = .execute s.cycle s.l4.pcTag r :: effectEvents r.instr s t := by
  simp only [executeEvents, dispatch, occupied, dispatched]

theorem executeEvents_of_fault {r : DecodedRecord} {reason : Fault} (occupied : s.l4.payload = some r)
    (raised : exec r.instr s = .fault reason) : executeEvents s = [.execute s.cycle s.l4.pcTag r] := by
  simp only [executeEvents, dispatch, occupied, raised]

/-- The records of an instruction's effect: its destination register, the flags of its row of R133, the PC of a taken branch. -/
theorem mem_effectEvents :
    e ∈ effectEvents i s t ↔
      (∃ d, destReg i = some d ∧ e = .regWrite t.cycle d (t.readReg d)) ∨
        (∃ f ∈ flagsUpdated i, e = .flagUpdate t.cycle f (t.flag f)) ∨
          (takesBranch i s = true ∧ e = .pcUpdate t.cycle t.pcView) := by
  unfold effectEvents
  cases destReg i <;> cases takesBranch i s <;> simp [eq_comm]

/-! ### A change made by a tick is reported -/

/-- Only an instruction with a destination register changes a register, and it changes that one (R22). -/
theorem destReg_of_readReg_ne {d : RegNum} (h : exec i s = .next t) (changed : t.readReg d ≠ s.readReg d) :
    destReg i = some d := by
  obtain ⟨v, rfl | rfl | rfl | rfl | rfl | rfl | rfl | rfl | rfl⟩ := registersChangeOnlyByTheList i s t d h changed <;> rfl

@[simp] theorem advanceL3_regs (s : State) : s.advanceL3.regs = s.regs := by rw [advanceL3_frame]
@[simp] theorem advanceL3_cycle (s : State) : s.advanceL3.cycle = s.cycle := by rw [advanceL3_frame]
@[simp] theorem frontEnd_regs (s : State) : (frontEnd s).regs = s.regs := by rw [frontEnd_frame]
@[simp] theorem checkTermination_regs (s : State) : (checkTermination s).regs = s.regs := by
  rw [checkTermination_eq]; split <;> rfl

/-- `t` holds the registers and the flags that `s` holds. -/
structure SameRegisters (s t : State) : Prop where
  regs : t.regs = s.regs
  sr : t.sr = s.sr

theorem SameRegisters.readReg (same : SameRegisters s t) (d : RegNum) : t.readReg d = s.readReg d := by
  unfold State.readReg; rw [same.regs]

theorem SameRegisters.flag (same : SameRegisters s t) (f : Flag) : t.flag f = s.flag f := by
  unfold State.flag; rw [same.sr]

theorem frontEnd_sameRegisters (s : State) : SameRegisters s (frontEnd s) := ⟨frontEnd_regs s, frontEnd_sr s⟩

/-- A tick leaves the registers and the flags it found, or those that its dispatch leaves. -/
theorem sameRegisters_of_step (running : s.runStatus = .running) (stepped : step s = .next t) :
    SameRegisters s t ∨
      ∃ r u, (frontEnd s).l4.payload = some r ∧ exec r.instr (frontEnd s) = .next u ∧ SameRegisters u t ∧
        t.cycle = u.cycle := by
  rw [step_of_running running] at stepped
  obtain ⟨v, (executed : executeStep (frontEnd s) = .next v), rfl⟩ := tick_next stepped
  rcases executeStep_next executed with ⟨-, rfl⟩ | ⟨r, u, occupied, dispatched, rfl⟩ | ⟨r, reason, -, -, rfl⟩
  · exact .inl ⟨by simp, by simp⟩
  · exact .inr ⟨r, u, occupied, dispatched, ⟨by simp, by simp⟩, by simp⟩
  · exact .inl ⟨by simp, by simp⟩

end TickRecords

/-- Settles O58: a change is the dispatch's, and the dispatch reports its destination register and the flags of its row. -/
theorem changesAreObserved : Obligations.ChangesAreObserved := by
  intro s t running stepped
  rw [tickEvents_of_step running stepped]
  dsimp only
  rcases sameRegisters_of_step running stepped with same | ⟨r, u, occupied, dispatched, same, cycle⟩
  · exact ⟨fun d changed => absurd (same.readReg d) changed, fun f changed => absurd (same.flag f) changed⟩
  have front := frontEnd_sameRegisters s
  rw [executeEvents_of_next occupied dispatched, cycle]
  refine ⟨fun d changed => List.mem_cons_of_mem _ (mem_effectEvents.mpr (.inl ⟨d, ?_, ?_⟩)),
    fun f changed => List.mem_cons_of_mem _ (mem_effectEvents.mpr (.inr (.inl ⟨f, ?_, ?_⟩)))⟩
  · rw [same.readReg d, ← front.readReg d] at changed
    exact destReg_of_readReg_ne dispatched changed
  · rw [same.readReg d]
  · rw [same.flag f, ← front.flag f] at changed
    by_contra notListed
    exact changed (exec_flag_of_not_mem dispatched notListed)
  · rw [same.flag f]

/-! ### What a record carries -/

/-- A record of one of the three steps of tick `n`: it carries that number, and it is not the record of the end (R180, R181). -/
def IsStepRecord (n : Nat) (e : Event) : Prop := eventCycle e = n ∧ ∀ d, e ≠ .endOfRun d

section StepRecords

variable {s t : State} {i : Instr} {e : Event}

theorem isStepRecord_of_fetchEvents (h : e ∈ fetchEvents s) : IsStepRecord s.cycle e := by
  unfold fetchEvents at h
  split at h
  · cases h
  · obtain rfl | rfl := List.mem_pair.mp h <;> exact ⟨rfl, nofun⟩

theorem isStepRecord_of_maybeFetchEvents (h : e ∈ maybeFetchEvents s) : IsStepRecord s.cycle e := by
  unfold maybeFetchEvents at h
  split at h
  · obtain rfl := List.mem_singleton.mp h
    exact ⟨rfl, nofun⟩
  · cases h

theorem isStepRecord_of_decodeEvents (h : e ∈ decodeEvents s) : IsStepRecord s.cycle e := by
  unfold decodeEvents at h
  split at h
  · obtain rfl := List.mem_singleton.mp h
    exact ⟨rfl, nofun⟩
  · cases h

theorem isStepRecord_of_effectEvents (h : e ∈ effectEvents i s t) : IsStepRecord t.cycle e := by
  obtain ⟨d, -, rfl⟩ | ⟨f, -, rfl⟩ | ⟨-, rfl⟩ := mem_effectEvents.mp h <;> exact ⟨rfl, nofun⟩

/-- No instruction counts a tick (R42). -/
theorem exec_cycle (h : exec i s = .next t) : t.cycle = s.cycle := by
  cases exec_effect h with
  | register _ _ writes =>
    obtain ⟨x, v, -, rfl⟩ := writes
    rfl
  | store _ _ _ _ _ stores => subst stores; rfl
  | branch _ _ takes => subst takes; rfl
  | nothing same => subst same; rfl
  | sentinel _ empties => subst empties; rfl

theorem isStepRecord_of_executeEvents (h : e ∈ executeEvents s) : IsStepRecord s.cycle e := by
  cases occupied : s.l4.payload with
  | none => rw [executeEvents_of_none occupied] at h; cases h
  | some r =>
    cases dispatched : exec r.instr s with
    | next u =>
      rw [executeEvents_of_next occupied dispatched] at h
      obtain rfl | effect := List.mem_cons.mp h
      · exact ⟨rfl, nofun⟩
      · exact exec_cycle dispatched ▸ isStepRecord_of_effectEvents effect
    | fault reason =>
      rw [executeEvents_of_fault occupied dispatched] at h
      obtain rfl := List.mem_singleton.mp h
      exact ⟨rfl, nofun⟩
    | refused q => exact absurd dispatched (exec_ne_refused _ _ q)

/-- The ending of a tick is the EndOfRun record where the tick terminates the run, and nothing elsewhere (R180). -/
theorem tickEvents_ending (stepped : step s = .next t) :
    (tickEvents s).ending =
      if s.runStatus = .running ∧ t.runStatus = .terminated then [.endOfRun (dump t)] else [] := by
  by_cases running : s.runStatus = .running
  · rw [tickEvents_of_step running stepped]
    simp [endingEvents, running]
  · rw [tickEvents_of_not_running running]
    simp [noEvents, running]

/-- A stream of a tick is its ending after records that one of its three steps may emit, whatever their order (R181). -/
theorem TickEvents.Admits.split {ev : TickEvents} {stream : List Event} (admits : ev.Admits stream) :
    ∃ body, stream = body ++ ev.ending ∧
      ∀ e ∈ body, e ∈ ev.fetch ∨ e ∈ ev.maybeFetch ∨ e ∈ ev.decode ∨ e ∈ ev.execute := by
  obtain ⟨f, d, x, fetch, decode, execute, rfl⟩ := admits
  refine ⟨f ++ d ++ x, rfl, fun e h => ?_⟩
  rw [List.mem_append, List.mem_append, decode.mem_iff, execute.mem_iff] at h
  have fetched : e ∈ f → e ∈ ev.fetch ∨ e ∈ ev.maybeFetch := fun h => by
    rcases fetch with fetch | fetch
    · exact .inl (fetch.mem_iff.mp h)
    · exact List.mem_append.mp (fetch.mem_iff.mp h)
  tauto

/-- With no tick there is no record. -/
theorem eq_nil_of_admits {stream : List Event} (stopped : s.runStatus ≠ .running) (admits : (tickEvents s).Admits stream) :
    stream = [] := by
  rw [tickEvents_of_not_running stopped] at admits
  obtain ⟨body, rfl, bySteps⟩ := admits.split
  simpa [noEvents, List.eq_nil_iff_forall_not_mem] using bySteps

/-- A stream of a tick is the records of its three steps and then its ending (R181). -/
theorem admits_tickEvents {stream : List Event} (admits : (tickEvents s).Admits stream) :
    ∃ body, stream = body ++ (tickEvents s).ending ∧ ∀ e ∈ body, IsStepRecord (s.cycle + 1) e := by
  by_cases running : s.runStatus = .running
  · obtain ⟨t, stepped⟩ := exists_step_of_running running
    obtain ⟨body, joined, bySteps⟩ := admits.split
    refine ⟨body, joined, fun e h => ?_⟩
    rw [tickEvents_of_step running stepped] at bySteps
    rcases bySteps e h with fetch | maybeFetch | decode | execute
    · exact isStepRecord_of_fetchEvents fetch
    · exact isStepRecord_of_maybeFetchEvents maybeFetch
    · exact afterFetch_cycle s ▸ isStepRecord_of_decodeEvents decode
    · exact frontEnd_cycle s ▸ isStepRecord_of_executeEvents execute
  · rw [eq_nil_of_admits running admits, tickEvents_of_not_running running]
    exact ⟨[], rfl, nofun⟩

/-- The ending of a tick carries the tick's number too: its dump is of the state that the tick leaves (R182). -/
theorem eventCycle_of_ending (h : e ∈ (tickEvents s).ending) : eventCycle e = s.cycle + 1 := by
  by_cases running : s.runStatus = .running
  · obtain ⟨t, stepped⟩ := exists_step_of_running running
    rw [tickEvents_ending stepped] at h
    split at h
    · obtain rfl := List.mem_singleton.mp h
      exact step_cycle running stepped
    · cases h
  · rw [tickEvents_of_not_running running] at h
    cases h

theorem eventCycle_of_admits {stream : List Event} (admits : (tickEvents s).Admits stream) (h : e ∈ stream) :
    eventCycle e = s.cycle + 1 := by
  obtain ⟨body, rfl, records⟩ := admits_tickEvents admits
  rcases List.mem_append.mp h with inBody | inEnding
  · exact (records e inBody).1
  · exact eventCycle_of_ending inEnding

/-- The step that takes the run from Running to Terminated ends its stream with the one EndOfRun record (R180). -/
theorem endsWithDump_of_admits {stream : List Event} (stepped : step s = .next t)
    (terminates : s.runStatus = .running ∧ t.runStatus = .terminated) (admits : (tickEvents s).Admits stream) :
    EndsWithDump (dump t) stream := by
  obtain ⟨body, rfl, records⟩ := admits_tickEvents admits
  rw [tickEvents_ending stepped, if_pos terminates]
  exact ⟨body, rfl, fun d h => (records _ h).2 d rfl⟩

/-- No other step emits that record. -/
theorem noEndOfRun_of_admits {stream : List Event} (stepped : step s = .next t)
    (goesOn : ¬(s.runStatus = .running ∧ t.runStatus = .terminated)) (admits : (tickEvents s).Admits stream) :
    NoEndOfRun stream := by
  obtain ⟨body, rfl, records⟩ := admits_tickEvents admits
  rw [tickEvents_ending stepped, if_neg goesOn, List.append_nil]
  exact fun d h => (records _ h).2 d rfl

end StepRecords

/-! ### The stream of a run -/

/-- The stream of one tick more is a stream of the ticks before, and then one of that tick (R181). -/
theorem admitsStream_concat {ev : TickEvents} {evs : List TickEvents} {stream : List Event} :
    AdmitsStream (evs ++ [ev]) stream ↔
      ∃ before last, AdmitsStream evs before ∧ ev.Admits last ∧ stream = before ++ last := by
  induction evs generalizing stream with
  | nil => simp
  | cons first evs ih =>
    simp only [List.cons_append, admitsStream_cons, ih]
    constructor
    · rintro ⟨a, _, ha, ⟨b, c, hb, hc, rfl⟩, rfl⟩
      exact ⟨a ++ b, c, ⟨a, b, ha, hb, rfl⟩, hc, (List.append_assoc a b c).symm⟩
    · rintro ⟨_, c, ⟨a, b, ha, hb, rfl⟩, hc, rfl⟩
      exact ⟨a, b ++ c, ha, ⟨b, c, hb, hc, rfl⟩, List.append_assoc a b c⟩

/-- The run so far, begun with the tick counter at `start`, has counted its ticks, and its records are in tick order. -/
structure InTickOrder (start : Nat) (r : Run) : Prop where
  begun : start ≤ r.state.cycle
  counted : r.state.cycle ≤ start + r.ticks
  ordered : ∀ stream, AdmitsStream r.events stream → stream.Pairwise (eventCycle · ≤ eventCycle ·)
  within : ∀ stream, AdmitsStream r.events stream → ∀ e ∈ stream, start < eventCycle e ∧ eventCycle e ≤ r.state.cycle

theorem inTickOrder_start (s : State) : InTickOrder s.cycle (Run.start s) where
  begun := le_refl s.cycle
  counted := le_refl s.cycle
  ordered := by rintro stream rfl; exact .nil
  within := by rintro stream rfl; exact nofun

/-- A step counts one tick, or none (R42, R184). -/
theorem cycle_of_step {s t : State} (stepped : step s = .next t) : t.cycle = s.cycle + 1 ∨ t.cycle = s.cycle := by
  rcases step_next stepped with ⟨running, -⟩ | ⟨-, rfl⟩
  · exact .inl (step_cycle running stepped)
  · exact .inr rfl

/-- Whatever a step emits carries the number it counts, a new one. -/
theorem eventCycle_of_step {s t : State} {stream : List Event} {e : Event} (stepped : step s = .next t)
    (admits : (tickEvents s).Admits stream) (h : e ∈ stream) : eventCycle e = t.cycle ∧ s.cycle < eventCycle e := by
  have number : eventCycle e = s.cycle + 1 := eventCycle_of_admits admits h
  have running : s.runStatus = .running := by
    by_contra stopped
    rw [eq_nil_of_admits stopped admits] at h
    cases h
  have counted : t.cycle = s.cycle + 1 := step_cycle running stepped
  omega

/-- A round's records carry a number above all those before, so they come after them. -/
theorem InTickOrder.round {start : Nat} {r r' : Run} (inOrder : InTickOrder start r) (round : r.round = some r') :
    InTickOrder start r' := by
  obtain ⟨t, stepped, rfl⟩ := round_some.mp round
  obtain ⟨begun, counted, ordered, within⟩ := inOrder
  have advances := cycle_of_step stepped
  refine ⟨by dsimp only; omega, by dsimp only; omega, fun stream admits => ?_, fun stream admits e h => ?_⟩
  all_goals obtain ⟨before, last, admitsBefore, admitsLast, rfl⟩ := admitsStream_concat.mp admits
  · refine List.pairwise_append.mpr ⟨ordered before admitsBefore,
      List.pairwise_of_forall_mem_list fun a ha b hb => ?_, fun a ha b hb => ?_⟩
    · rw [(eventCycle_of_step stepped admitsLast ha).1, (eventCycle_of_step stepped admitsLast hb).1]
    · have early := (within before admitsBefore a ha).2
      have late := (eventCycle_of_step stepped admitsLast hb).2
      omega
  · dsimp only
    rcases List.mem_append.mp h with inBefore | inLast
    · have early := within before admitsBefore e inBefore
      omega
    · have late := eventCycle_of_step stepped admitsLast inLast
      omega

/-- Settles O59: the records of a tick carry its number, and every round of the loop keeps the order. -/
theorem recordsCarryTheTickNumber : Obligations.RecordsCarryTheTickNumber := by
  refine ⟨fun s stream e => eventCycle_of_admits, fun bound s r stream ⟨fuel, looped⟩ admits => ?_⟩
  obtain ⟨⟨begun, counted, ordered, within⟩, -⟩ :=
    hostLoop_induct (fun _ _ => InTickOrder.round) (inTickOrder_start s) looped
  refine ⟨ordered stream admits, fun e h => ?_⟩
  obtain ⟨after, upTo⟩ := within stream admits e h
  exact ⟨after, upTo.trans counted⟩

/-! ### The end of a run -/

/-- The run the loop stops with is one round after a run that has what the rounds the loop goes on from keep. -/
theorem hostLoop_last_round {bound : MaxTicks} {P : Run → Prop}
    (keep : ∀ r r', P r → r.round = some r' → r'.stops bound = false → P r') :
    ∀ {fuel : Nat} {r r' : Run}, P r → hostLoop bound fuel r = some r' → ∃ q, P q ∧ q.round = some r' := by
  intro fuel
  induction fuel with
  | zero => intro r r' _ looped; cases looped
  | succ fuel ih =>
    intro r r'' holds looped
    obtain ⟨r', round, ⟨-, rfl⟩ | ⟨goesOn, looped'⟩⟩ := hostLoop_succ.mp looped
    · exact ⟨r, holds, round⟩
    · exact ih (keep r r' holds round goesOn) looped'

/-- The run so far leaves the block Running: it has the records of every tick it counts, and none of them is EndOfRun. -/
structure GoesOn (r : Run) : Prop where
  running : r.state.runStatus = .running
  counted : r.events.length = r.ticks
  noEnding : ∀ e ∈ r.events, e.ending = []
  noEndOfRun : ∀ stream, AdmitsStream r.events stream → NoEndOfRun stream

theorem goesOn_start {s : State} (running : s.runStatus = .running) : GoesOn (Run.start s) where
  running := running
  counted := rfl
  noEnding := nofun
  noEndOfRun := by rintro stream rfl; exact nofun

theorem NoEndOfRun.append {before last : List Event} (h : NoEndOfRun before) (h' : NoEndOfRun last) :
    NoEndOfRun (before ++ last) := fun d hd =>
  (List.mem_append.mp hd).elim (h d) (h' d)

theorem EndsWithDump.prepend {d : Dump} {before last : List Event} (h : EndsWithDump d last) (h' : NoEndOfRun before) :
    EndsWithDump d (before ++ last) := by
  obtain ⟨body, rfl, noEnd⟩ := h
  exact ⟨before ++ body, (List.append_assoc before body _).symm, h'.append noEnd⟩

theorem running_of_not_stops {bound : MaxTicks} {r : Run} (h : r.stops bound = false) : r.state.runStatus = .running := by
  unfold Run.stops at h
  simpa using (Bool.or_eq_false_iff.mp h).1

theorem GoesOn.round {bound : MaxTicks} {r r' : Run} (goesOn : GoesOn r) (round : r.round = some r')
    (notStopped : r'.stops bound = false) : GoesOn r' := by
  obtain ⟨t, stepped, rfl⟩ := round_some.mp round
  obtain ⟨running, counted, noEnding, noEndOfRun⟩ := goesOn
  have running' : t.runStatus = .running := running_of_not_stops notStopped
  have notLast : ¬(r.state.runStatus = .running ∧ t.runStatus = .terminated) := by simp [running']
  refine ⟨running', by simp [counted], fun e h => ?_, fun stream admits => ?_⟩
  · rcases List.mem_append.mp h with before | last
    · exact noEnding e before
    · rw [List.mem_singleton.mp last, tickEvents_ending stepped, if_neg notLast]
  · obtain ⟨before, last, admitsBefore, admitsLast, rfl⟩ := admitsStream_concat.mp admits
    exact (noEndOfRun before admitsBefore).append (noEndOfRun_of_admits stepped notLast admitsLast)

/-- Settles O60: a tick's ending depends on the run status it leaves, and all rounds of a run but the last leave it Running. -/
theorem endOfRunIsReportedOnce : Obligations.EndOfRunIsReportedOnce := by
  refine ⟨fun s t stepped => ⟨fun terminates => ⟨?_, fun _ => endsWithDump_of_admits stepped terminates⟩,
    fun goesOn => ⟨?_, fun _ => noEndOfRun_of_admits stepped goesOn⟩⟩, fun bound s r running ⟨fuel, looped⟩ => ?_⟩
  · rw [tickEvents_ending stepped, if_pos terminates]
  · rw [tickEvents_ending stepped, if_neg goesOn]
  obtain ⟨q, ⟨running, counted, noEnding, noEndOfRun⟩, round⟩ :=
    hostLoop_last_round (fun _ _ => GoesOn.round) (goesOn_start running) looped
  obtain ⟨t, stepped, rfl⟩ := round_some.mp round
  refine ⟨by simp [counted], by simpa using noEnding, fun e last => ?_, fun stream admits => ?_⟩
  · rw [List.getLast?_concat] at last
    cases last
    simp [tickEvents_ending stepped, running]
  · obtain ⟨before, last, admitsBefore, admitsLast, rfl⟩ := admitsStream_concat.mp admits
    have noneBefore := noEndOfRun before admitsBefore
    exact ⟨fun ended => (endsWithDump_of_admits stepped ⟨running, ended⟩ admitsLast).prepend noneBefore,
      fun notEnded => noneBefore.append (noEndOfRun_of_admits stepped (fun h => notEnded h.2) admitsLast)⟩

end Sys2Proof.Machine

/-! PROOFS. Reset, load and the host's loop (70_reset_and_hazards.md): the table of reset values, where a load puts its words,
when a run ends, and the placed word as two ticks of a load. -/

namespace Sys2Proof.Machine

open Sys2Proof

/-! ### Reset -/

theorem resetProcessor_resetProcessor (s : State) : resetProcessor (resetProcessor s) = resetProcessor s := rfl

theorem resetProcessor_reset : resetProcessor State.reset = State.reset := rfl

@[simp] theorem resetProcessor_readReg (s : State) (i : RegNum) : (resetProcessor s).readReg i = 0 :=
  Vector.getElem_replicate i.isLt

@[simp] theorem resetProcessor_flag (s : State) (f : Flag) : (resetProcessor s).flag f = false := BitVec.getLsbD_zero

@[simp] theorem resetProcessor_pc (s : State) : (resetProcessor s).pc = 0 := BitVec.zero_append_zero

/-- Settles O40: State.reset is what a reset makes of itself, so both are a reset's result. -/
theorem resetLeavesTheTable : Obligations.ResetLeavesTheTable := by
  intro s t isReset
  obtain ⟨u, rfl⟩ : ∃ u, t = resetProcessor u := by
    rcases isReset with rfl | rfl
    · exact ⟨s, rfl⟩
    · exact ⟨State.reset, resetProcessor_reset.symm⟩
  exact ⟨resetProcessor_readReg u, rfl, resetProcessor_flag u, resetProcessor_pc u, fun _ => rfl, fun _ => rfl,
    rfl, rfl, rfl, rfl, rfl, rfl, resetProcessor_resetProcessor u⟩

/-! ### The load -/

/-- Settles O7: a load writes from address 0 up, so a cell holds its word where the program has one for it. -/
theorem loadPlacesTheProgram : Obligations.LoadPlacesTheProgram := by
  intro ws s
  refine ⟨fun fits => ?_, fun tooLong => if_pos tooLong⟩
  obtain ⟨t, loaded⟩ := loadProgram_ok ws s fits
  have written : writeWordsFrom 0 ws s = .ok t := (if_neg (Nat.not_lt.mpr fits)).symm.trans loaded
  obtain ⟨frame, cells⟩ := writeWordsFrom_eq written
  have cell (a : ImAddr) : t.ifetch a = (ws[a.val]?).getD (s.ifetch a) := by rw [cells, if_pos (Nat.zero_le _)]; rfl
  refine ⟨t, loaded, frame, fun a inside => ?_, fun a beyond => ?_⟩
  · rw [cell, List.getElem?_eq_getElem inside, Option.getD_some]
  · rw [cell, List.getElem?_eq_none beyond, Option.getD_none]

/-! ### The host's loop -/

/-- The check after a tick finds the run ended exactly where it finds the latches Empty (R112). -/
theorem Tick.terminated_iff {s t : State} (tick : Tick s t) (running : s.runStatus = .running) (notFaulted : NotFaulted t) :
    t.runStatus = .terminated ↔
      t.l1.payload = none ∧ t.l2.payload = none ∧ t.l3.payload = none ∧ t.l4.payload = none := by
  rw [← allLatchesEmpty_iff, tick.status running notFaulted]
  by_cases empty : t.allLatchesEmpty = true <;> simp [empty]

theorem boundMet_iff {bound : MaxTicks} {n : Nat} : boundMet bound n = true ↔ bound = .bounded n := by
  cases bound with
  | unbounded => simp
  | bounded m => rw [boundMet_bounded, beq_iff_eq, MaxTicks.bounded.injEq, eq_comm]

/-- The loop's `until` (R196). -/
theorem stops_iff {bound : MaxTicks} {r : Run} :
    r.stops bound = true ↔ r.state.runStatus ≠ .running ∨ bound = .bounded r.ticks := by
  rw [Run.stops, Bool.or_eq_true, bne_iff_ne, boundMet_iff]

theorem stops_of_hostLoop {bound : MaxTicks} {fuel : Nat} {r r' : Run} (looped : hostLoop bound fuel r = some r') :
    r'.stops bound = true :=
  (hostLoop_induct (P := fun _ => True) (fun _ _ _ _ => trivial) trivial looped).2

/-- The run so far from `s` is the ticks it counts, and the loop went on after each of them. -/
structure WentOn (bound : MaxTicks) (s : State) (r : Run) : Prop where
  reached : ticks r.ticks s = .next r.state
  goesOn : ∀ k, 1 ≤ k → k ≤ r.ticks → bound ≠ .bounded k ∧ ∃ t, ticks k s = .next t ∧ t.runStatus = .running

theorem wentOn_start (bound : MaxTicks) (s : State) : WentOn bound s (Run.start s) where
  reached := rfl
  goesOn _ positive counted := absurd (positive.trans counted) (Nat.not_succ_le_zero 0)

/-- A round takes the tick that comes next. -/
theorem WentOn.reached_round {bound : MaxTicks} {s t : State} {r : Run} (wentOn : WentOn bound s r)
    (stepped : step r.state = .next t) : ticks (r.ticks + 1) s = .next t :=
  (ticks_succ_of_ticks wentOn.reached).trans stepped

theorem WentOn.round {bound : MaxTicks} {s : State} {r r' : Run} (wentOn : WentOn bound s r) (round : r.round = some r')
    (notStopped : r'.stops bound = false) : WentOn bound s r' := by
  obtain ⟨t, stepped, rfl⟩ := round_some.mp round
  have reached := wentOn.reached_round stepped
  refine ⟨reached, fun k positive counted => ?_⟩
  obtain before | rfl := Nat.le_succ_iff.mp counted
  · exact wentOn.goesOn k positive before
  · refine ⟨fun met => ?_, t, reached, running_of_not_stops notStopped⟩
    rw [stops_iff.mpr (.inr met)] at notStopped
    cases notStopped

theorem exists_round_of_running {r : Run} (running : r.state.runStatus = .running) :
    ∃ r', r.round = some r' ∧ r'.ticks = r.ticks + 1 := by
  obtain ⟨t, stepped⟩ := exists_step_of_running running
  exact ⟨_, round_some.mpr ⟨t, stepped, rfl⟩, rfl⟩

/-- A bounded loop on a Running block stops, with no more ticks than the bound still leaves it. -/
theorem exists_hostLoop_of_bounded {m fuel : Nat} {r : Run} (running : r.state.runStatus = .running)
    (left : r.ticks + (fuel + 1) = m) :
    ∃ r', hostLoop (.bounded m) (fuel + 1) r = some r' ∧ r'.ticks ≤ m := by
  induction fuel generalizing r with
  | zero =>
    obtain ⟨r', round, counted⟩ := exists_round_of_running running
    have atBound : r'.ticks = m := counted.trans left
    have stopped : r'.stops (.bounded m) = true := stops_iff.mpr (.inr (congrArg MaxTicks.bounded atBound.symm))
    exact ⟨r', hostLoop_succ.mpr ⟨r', round, .inl ⟨stopped, rfl⟩⟩, atBound.le⟩
  | succ fuel ih =>
    obtain ⟨r', round, counted⟩ := exists_round_of_running running
    cases stopped : r'.stops (.bounded m) with
    | true => exact ⟨r', hostLoop_succ.mpr ⟨r', round, .inl ⟨stopped, rfl⟩⟩, by omega⟩
    | false =>
      obtain ⟨r'', looped, within⟩ := ih (running_of_not_stops stopped) (by omega)
      exact ⟨r'', hostLoop_succ.mpr ⟨r', round, .inr ⟨stopped, looped⟩⟩, within⟩

/-- Settles O49: the check of a tick; the rounds before the last one, each of which went on; and the bound as a measure. -/
theorem terminationRule : Obligations.TerminationRule := by
  refine ⟨fun s running => ?_, fun bound s r _ ⟨fuel, looped⟩ => ?_, fun m s running positive => ?_⟩
  · obtain ⟨t, stepped⟩ := exists_step_of_running running
    exact ⟨t, stepped, step_cycle running stepped, (tick_of_step running stepped).terminated_iff running⟩
  · obtain ⟨q, wentOn, round⟩ := hostLoop_last_round (fun _ _ => WentOn.round) (wentOn_start bound s) looped
    have stopped := stops_iff.mp (stops_of_hostLoop looped)
    obtain ⟨t, stepped, rfl⟩ := round_some.mp round
    exact ⟨Nat.le_add_left 1 q.ticks, wentOn.reached_round stepped, stopped,
      fun k positive before => wentOn.goesOn k positive (Nat.le_of_lt_succ before)⟩
  · obtain ⟨fuel, rfl⟩ : ∃ fuel, m = fuel + 1 := ⟨m - 1, by omega⟩
    obtain ⟨r, looped, within⟩ := exists_hostLoop_of_bounded (r := Run.start s) running (Nat.zero_add (fuel + 1))
    exact ⟨r, ⟨fuel + 1, looped⟩, within⟩

/-! ### The placed word -/

theorem placeNext_of_ne {w : Word} (notSentinel : w ≠ sentinelWord) (s : State) :
    s.placeNext w =
      { (s.writeIm (imAddrOf s.pcView) w).incrementPc with
        l4 := occupiedLatch (decodeRecord w) s.pcView, runStatus := .running } :=
  if_neg notSentinel

/-- The number of a word spells that word (R80). -/
theorem withFetchWord_toNat (s : State) (n : Nat) (w : Word) : s.withFetchWord n w.toNat = s.placeNext w := by
  rw [State.withFetchWord, BitVec.ofNat_toNat, BitVec.setWidth_eq]

theorem advanceL3_of_some {s : State} {r : DecodedRecord} (h : s.l3.payload = some r) :
    s.advanceL3 = { s with l4 := occupiedLatch r s.l3.pcTag }.vacateL3 := by
  unfold State.advanceL3; rw [h]

theorem advanceL3_of_none {s : State} (l3 : s.l3.payload = none) (l4 : s.l4.payload = none) : s.advanceL3 = s := by
  unfold State.advanceL3 State.vacateL4
  rw [l3]
  dsimp only
  rw [l4]

/-- The check leaves a block with a word in L1 as it is (R112). -/
theorem checkTermination_of_l1 {s : State} {w : Word} (h : s.l1.payload = some w) : checkTermination s = s := by
  rw [checkTermination_eq, if_neg]
  simp [allLatchesEmpty_iff, h]

/-- The check leaves a block with a record in L4 as it is (R112). -/
theorem checkTermination_of_l4 {s : State} {r : DecodedRecord} (h : s.l4.payload = some r) : checkTermination s = s := by
  rw [checkTermination_eq, if_neg]
  simp [allLatchesEmpty_iff, h]

/-- With L2 Empty the front end that fetches a word takes it to L1 and its record to L2 (R102, R106). -/
theorem frontEnd_of_fetched_word {s : State} (notSentinel : s.fetchedWord ≠ sentinelWord) (l2 : s.l2.payload = none) :
    frontEnd s = { s.countTick.latchFetched with l2 := occupiedLatch (decodeRecord s.fetchedWord) s.pcView } := by
  have promoted : s.countTick.latchFetched.promote = s.countTick.latchFetched := promote_of_none l2
  rw [frontEnd_of_ne notSentinel, decodeStep, promoted]
  exact decodeL1_of_some rfl

/-- The front end that fetches the sentinel takes the record in L2 to L3 (R103, R105). -/
theorem frontEnd_of_fetched_sentinel {s : State} {r : DecodedRecord} (isSentinel : s.fetchedWord = sentinelWord)
    (l2 : s.l2.payload = some r) :
    frontEnd s = { s.countTick.vacateL1 with l3 := occupiedLatch r s.l2.pcTag }.vacateL2 := by
  rw [frontEnd_of_sentinel isSentinel, decodeStep, promote_of_some (s := s.countTick.vacateL1) l2]
  exact decodeL1_of_none rfl

/-- With nothing behind L1 a tick that fetches a word has nothing to execute. -/
theorem step_eq_frontEnd {s : State} (running : s.runStatus = .running) (notSentinel : s.fetchedWord ≠ sentinelWord)
    (l2 : s.l2.payload = none) (l3 : s.l3.payload = none) (l4 : s.l4.payload = none) : step s = .next (frontEnd s) := by
  have l1' : (frontEnd s).l1.payload = some s.fetchedWord := by rw [frontEnd_l1_of_ne notSentinel]
  have l3' : (frontEnd s).l3.payload = none := by rw [frontEnd_l3_of_none l2, l3]
  have l4' : (frontEnd s).l4.payload = none := by rw [frontEnd_l4, l4]
  rw [step_of_l4_none running l4, advanceL3_of_none l3' l4', checkTermination_of_l1 l1']

/-- With a record in L2 and L4 Empty a tick moves that record on to L4, and the run goes on. -/
theorem step_eq_advanceL3_frontEnd {s : State} {r : DecodedRecord} (running : s.runStatus = .running)
    (l2 : s.l2.payload = some r) (l4 : s.l4.payload = none) : step s = .next (frontEnd s).advanceL3 := by
  have l3' : (frontEnd s).l3.payload = some r := by rw [frontEnd_l3_of_some l2]
  have l4' : (frontEnd s).advanceL3.l4.payload = some r := by rw [advanceL3_of_some l3']; rfl
  rw [step_of_l4_none running l4, checkTermination_of_l4 l4']

/-- A block reset and loaded with the one word `w`. -/
def loadedWord (m : State) (w : Word) : State := (resetProcessor m).writeIm 0 w

theorem loadedWord_ifetch (m : State) (w : Word) (a : ImAddr) :
    (loadedWord m w).ifetch a = if 0 = a then w else sentinelWord := ifetch_writeIm (resetProcessor m) 0 a w

/-- The block after the tick that fetches the word `w`. -/
def fetchedWordState (m : State) (w : Word) : State :=
  { (loadedWord m w).incrementPc with l1 := occupiedLatch w 0, l2 := occupiedLatch (decodeRecord w) 0, cycle := 1 }

/-- The first tick fetches the word. -/
theorem step_loadedWord {w : Word} (notSentinel : w ≠ sentinelWord) (m : State) :
    step (loadedWord m w) = .next (fetchedWordState m w) := by
  have fetched : (loadedWord m w).fetchedWord = w := loadedWord_ifetch m w 0
  have notSentinel' : (loadedWord m w).fetchedWord ≠ sentinelWord := fetched.trans_ne notSentinel
  have counted : (loadedWord m w).countTick.fetchedWord = w := fetched
  rw [step_eq_frontEnd rfl notSentinel' rfl rfl rfl, frontEnd_of_fetched_word notSentinel' rfl, fetched, State.latchFetched,
    counted]
  rfl

/-- The second tick fetches the sentinel of the cell after the word, whose record it takes to L4. -/
theorem step_fetchedWordState (m : State) (w : Word) :
    step (fetchedWordState m w) =
      .next
        { fetchedWordState m w with
          l1 := vacatedLatch Word 0, l2 := vacatedLatch DecodedRecord 1, l3 := vacatedLatch DecodedRecord 2
          l4 := occupiedLatch (decodeRecord w) 0, cycle := 2, freeCount := 3 } := by
  have isSentinel : (fetchedWordState m w).fetchedWord = sentinelWord := loadedWord_ifetch m w 1
  have l2 : (fetchedWordState m w).l2.payload = some (decodeRecord w) := rfl
  rw [step_eq_advanceL3_frontEnd rfl l2 rfl, frontEnd_of_fetched_sentinel isSentinel l2, advanceL3_of_some rfl]
  rfl

/-- Settles O57: the two ticks leave the placed state but for the counts and the pc-tags of the latches they emptied. -/
theorem placedWordIsTwoTicksAfterItsLoad : Obligations.PlacedWordIsTwoTicksAfterItsLoad := by
  intro m w notSentinel
  have twoTicks : ticks 2 (loadedWord m w) = step (fetchedWordState m w) :=
    ticks_succ_of_ticks ((ticks_succ_of_ticks (ticks_zero _)).trans (step_loadedWord notSentinel m))
  refine ⟨fun n => ?_, _, twoTicks.trans (step_fetchedWordState m w), ?_⟩
  · rw [withFetchWord_toNat, placeNext_of_ne notSentinel, decode_of_ne notSentinel]
    exact ⟨rfl, rfl⟩
  · rw [withFetchWord_toNat, placeNext_of_ne notSentinel]
    rfl

end Sys2Proof.Machine

/-! PROOFS. SAR and the shift counts (42_logic_shift.md), the second register and its parameter (30_encoding.md section 3), and
the model faults (60_exceptions.md section 2): which instruction raises which, and what is left of a tick that one stops. -/

namespace Sys2Proof.Machine

open Sys2Proof

/-! ### The results of the shifts -/

/-- SAR's result as a number: no wrap is left in it, because the quotient of an `int8` is one (R143, D9). -/
theorem toInt_sarResult (x : Byte) (n : Nat) : (sarResult x n).toInt = x.toInt / 2 ^ n := by
  rw [sarResult_eq_sshiftRight, BitVec.toInt_sshiftRight, Int.shiftRight_eq_div_pow]
  norm_cast

/-- SAR's result is the floor of the quotient, by the two inequalities that say so (R143). -/
theorem sarResult_floor (x : Byte) (n : Nat) :
    (sarResult x n).toInt * 2 ^ n ≤ x.toInt ∧ x.toInt < ((sarResult x n).toInt + 1) * 2 ^ n := by
  have positive : (0 : Int) < 2 ^ n := by positivity
  rw [toInt_sarResult]
  exact ⟨Int.ediv_mul_le _ positive.ne', Int.lt_ediv_add_one_mul_self _ positive⟩

/-- Eight or more left shifts leave none of the eight bits (R144). -/
theorem salResult_of_eight_le {n : Nat} (h : 8 ≤ n) (x : Byte) : salResult x n = 0 := by
  rw [salResult_eq_shiftLeft, BitVec.shiftLeft_eq_zero h]
  rfl

/-- Eight or more right shifts leave the sign only: an `int8` is less than `2^8` away from 0 (R144, D9). -/
theorem toInt_sarResult_of_eight_le {n : Nat} (h : 8 ≤ n) (x : Byte) :
    (sarResult x n).toInt = if x.toInt < 0 then -1 else 0 := by
  have power : (2 : Int) ^ 8 ≤ 2 ^ n := pow_le_pow_right₀ (by decide) h
  have low := BitVec.le_toInt x
  have high := BitVec.toInt_lt (x := x)
  rw [toInt_sarResult]
  split
  case isTrue negative => exact Int.ediv_eq_neg_one_of_neg_of_le negative (by omega)
  case isFalse nonneg => exact Int.ediv_eq_zero_of_lt (by omega) (by omega)

/-! ### The second register -/

/-- A value2 of 0 or more is the index under either value of the parameter (R92). -/
theorem regIndex2_of_nonneg {v : Value2} (h : 0 ≤ value2Int v) (mode : V2RegIndex) :
    ∃ i, regIndex2 mode v = .ok i ∧ (i.val : Int) = value2Int v :=
  ⟨_, dif_pos h, Int.toNat_of_nonneg h⟩

/-- With `masked` a negative value2 gives an index 64 above it (R92). -/
theorem regIndex2_masked_of_neg {v : Value2} (h : value2Int v < 0) :
    ∃ i, regIndex2 .masked v = .ok i ∧ (i.val : Int) = value2Int v + 64 :=
  ⟨_, dif_neg (not_le.mpr h), Int.toNat_of_nonneg (by have := le_value2Int v; omega)⟩

/-- With `fault` a negative value2 gives none (R92, D6). -/
theorem regIndex2_fault_of_neg {v : Value2} (h : value2Int v < 0) : regIndex2 .fault v = .error .v2RegIndexNegative :=
  dif_neg (not_le.mpr h)

/-- Where value2 is 0 or more, it is the index in every state, whatever the parameter is there (R92). -/
theorem exists_sourceIndex_of_nonneg {v : Value2} (h : 0 ≤ value2Int v) : ∃ i, ∀ s, SourceIndex s v i := by
  obtain ⟨i, -, number⟩ := regIndex2_of_nonneg h .fault
  exact ⟨i, fun _ => .inl ⟨h, number⟩⟩

/-! ### An instruction under the other value of the parameter -/

/-- The state of a machine built with that value of V2_REG_INDEX. -/
def withMode (mode : V2RegIndex) (s : State) : State := { s with v2RegIndex := mode }

@[simp] theorem withMode_readReg (mode : V2RegIndex) (s : State) (i : RegNum) :
    (withMode mode s).readReg i = s.readReg i := rfl

theorem setFlag_withMode (f : Flag) (b : Bool) (mode : V2RegIndex) (s : State) :
    (withMode mode s).setFlag f b = withMode mode (s.setFlag f b) := rfl

theorem addFlags_withMode (mode : V2RegIndex) (a b r : Byte) (s : State) :
    addFlags a b r (withMode mode s) = withMode mode (addFlags a b r s) := by
  simp only [addFlags, updateCarry, updateOverflowAdd, updateNegative, updateSign, updateZero, setFlag_withMode]

theorem subFlags_withMode (mode : V2RegIndex) (a b r : Byte) (s : State) :
    subFlags a b r (withMode mode s) = withMode mode (subFlags a b r s) := by
  simp only [subFlags, updateOverflowSub, updateNegative, updateSign, updateZero, setFlag_withMode]

theorem nzFlags_withMode (mode : V2RegIndex) (r : Byte) (s : State) :
    nzFlags r (withMode mode s) = withMode mode (nzFlags r s) := by
  simp only [nzFlags, updateNegative, updateZero, setFlag_withMode]

/-- ADD, SUB, MUL and EOR take the parameter to resolve the second register only. -/
theorem registerOp_withMode {flags : Byte → Byte → Byte → State → State} {mode : V2RegIndex}
    (kept : ∀ a b r s, flags a b r (withMode mode s) = withMode mode (flags a b r s)) {v : Value2}
    (nonneg : 0 ≤ value2Int v) (result : Byte → Byte → Byte) (d : RegNum) (s : State) :
    registerOp result flags d v (withMode mode s) = mapNext (withMode mode) (registerOp result flags d v s) := by
  obtain ⟨i, index⟩ := exists_sourceIndex_of_nonneg nonneg
  rw [registerOp_of_sourceIndex (index _), registerOp_of_sourceIndex (index s), withMode_readReg, withMode_readReg, kept]
  rfl

/-- So does BR. -/
theorem exec_br_withMode {v : Value2} (nonneg : 0 ≤ value2Int v) (mode : V2RegIndex) (d : RegNum) (s : State) :
    exec (.br d v) (withMode mode s) = mapNext (withMode mode) (exec (.br d v) s) := by
  obtain ⟨i, index⟩ := exists_sourceIndex_of_nonneg nonneg
  rw [exec_br_of_sourceIndex (index _), exec_br_of_sourceIndex (index s), withMode_readReg]
  rfl

/-- SAL and SAR do not take it. -/
theorem shiftOp_withMode (result : Byte → Nat → Byte) (d : RegNum) (v : Value2) (mode : V2RegIndex) (s : State) :
    shiftOp result d v (withMode mode s) = mapNext (withMode mode) (shiftOp result d v s) := by
  unfold shiftOp
  cases shiftCount v <;> rfl

theorem execLdr_withMode (d : RegNum) (v : Value2) (mode : V2RegIndex) (s : State) :
    execLdr d v (withMode mode s) = mapNext (withMode mode) (execLdr d v s) := by
  unfold execLdr
  cases dataAddress v <;> rfl

theorem execStr_withMode (d : RegNum) (v : Value2) (mode : V2RegIndex) (s : State) :
    execStr d v (withMode mode s) = mapNext (withMode mode) (execStr d v s) := by
  unfold execStr
  cases dataAddress v <;> rfl

theorem exec_beqz_withMode (d : RegNum) (v : Value2) (mode : V2RegIndex) (s : State) :
    exec (.beqz d v) (withMode mode s) = mapNext (withMode mode) (exec (.beqz d v) s) := by
  by_cases zero : s.readReg d = 0
  · rw [exec_beqz_of_zero zero, exec_beqz_of_zero (s := withMode mode s) zero]
    rfl
  · rw [exec_beqz_of_ne_zero zero, exec_beqz_of_ne_zero (s := withMode mode s) zero]
    rfl

/-! ### Which instruction raises which model fault -/

/-- `regIndex2` faults exactly where R92 says so. -/
theorem regIndex2_eq_error_iff {s : State} {v : Value2} {e : Fault} :
    regIndex2 s.v2RegIndex v = .error e ↔ SourceFaults s v ∧ e = .v2RegIndexNegative := by
  constructor
  · intro raised
    obtain ⟨negative, isFault, rfl⟩ := regIndex2_error raised
    exact ⟨⟨negative, isFault⟩, rfl⟩
  · rintro ⟨faults, rfl⟩
    exact regIndex2_of_sourceFaults faults

/-- ADD, SUB, MUL and EOR fault where they have no second register (R130, D6). -/
theorem registerOp_eq_fault_iff {result : Byte → Byte → Byte} {flags : Byte → Byte → Byte → State → State} {d : RegNum}
    {v : Value2} {s : State} {e : Fault} :
    registerOp result flags d v s = .fault e ↔ SourceFaults s v ∧ e = .v2RegIndexNegative := by
  rw [← regIndex2_eq_error_iff, registerOp]
  cases regIndex2 s.v2RegIndex v <;> simp

/-- So does BR (R161, D6). -/
theorem execBr_eq_fault_iff {d : RegNum} {v : Value2} {s : State} {e : Fault} :
    execBr d v s = .fault e ↔ SourceFaults s v ∧ e = .v2RegIndexNegative := by
  rw [← regIndex2_eq_error_iff, execBr]
  cases regIndex2 s.v2RegIndex v <;> simp

/-- SAL and SAR fault on a negative count (R144, D8). -/
theorem shiftOp_eq_fault_iff {result : Byte → Nat → Byte} {d : RegNum} {v : Value2} {s : State} {e : Fault} :
    shiftOp result d v s = .fault e ↔ value2Int v < 0 ∧ e = .shiftCountNegative := by
  rcases lt_or_ge (value2Int v) 0 with negative | nonneg
  · simp [shiftOp_of_neg negative, negative, eq_comm]
  · simp [shiftOp_of_nonneg nonneg, not_lt.mpr nonneg]

section FaultRows

variable {i : Instr} {d : RegNum} {v : Value2} {s : State} {e : Fault}

/-- The first row of R173: the instructions with a second register. -/
theorem exec_eq_fault_iff_of_secondRegister
    (h : i = .add d v ∨ i = .sub d v ∨ i = .mul d v ∨ i = .eor d v ∨ i = .br d v) :
    exec i s = .fault e ↔ SourceFaults s v ∧ e = .v2RegIndexNegative := by
  rcases h with rfl | rfl | rfl | rfl | rfl
  · exact registerOp_eq_fault_iff (result := addResult) (flags := addFlags)
  · exact registerOp_eq_fault_iff (result := subResult) (flags := subFlags)
  · exact registerOp_eq_fault_iff (result := mulResult) (flags := fun _ _ r => nzFlags r)
  · exact registerOp_eq_fault_iff (result := eorResult) (flags := fun _ _ r => nzFlags r)
  · exact execBr_eq_fault_iff (d := d)

/-- The second row: the instructions with a data address (R153, D7). -/
theorem exec_eq_fault_iff_of_dataAccess (h : i = .ldr d v ∨ i = .str d v) :
    exec i s = .fault e ↔ value2Int v < 0 ∧ e = .dataAddressNegative := by
  rcases lt_or_ge (value2Int v) 0 with negative | nonneg
  · have faults := dataAddress_of_neg negative
    rcases h with rfl | rfl
    · simp [exec_ldr_of_error faults, negative, eq_comm]
    · simp [exec_str_of_error faults, negative, eq_comm]
  · obtain ⟨ea, formed⟩ := dataAddress_of_nonneg nonneg
    rcases h with rfl | rfl
    · simp [exec_ldr_of_ok formed, not_lt.mpr nonneg]
    · simp [exec_str_of_ok formed, not_lt.mpr nonneg]

/-- The third row: the instructions with a shift count. -/
theorem exec_eq_fault_iff_of_shift (h : i = .sal d v ∨ i = .sar d v) :
    exec i s = .fault e ↔ value2Int v < 0 ∧ e = .shiftCountNegative := by
  rcases h with rfl | rfl <;> exact shiftOp_eq_fault_iff

/-- An instruction that raises a model fault stands in one of the three rows. -/
theorem instr_of_exec_fault (h : exec i s = .fault e) :
    (∃ d v, i = .add d v ∨ i = .sub d v ∨ i = .mul d v ∨ i = .eor d v ∨ i = .br d v) ∨
      (∃ d v, i = .ldr d v ∨ i = .str d v) ∨ ∃ d v, i = .sal d v ∨ i = .sar d v := by
  cases i with
  | add d v | sub d v | mul d v | eor d v | br d v => exact .inl ⟨d, v, by simp⟩
  | ldr d v | str d v => exact .inr (.inl ⟨d, v, by simp⟩)
  | sal d v | sar d v => exact .inr (.inr ⟨d, v, by simp⟩)
  | beqz d v =>
    by_cases zero : s.readReg d = 0
    · cases (exec_beqz_of_zero zero v).symm.trans h
    · cases (exec_beqz_of_ne_zero zero v).symm.trans h
  | movi | andi | reserved12 | reserved13 | reserved14 | reserved15 | sentinel => cases h

end FaultRows

/-! ### The obligations -/

/-- Settles O16: with a count of 0 to 31 the result is the floor of the quotient, with a negative one SAR faults. -/
theorem sarMeaning : Obligations.SarMeaning := by
  intro d v s
  refine ⟨encodedAs_instrOf (by decide) d v, fun nonneg => ?_, fun negative => shiftOp_of_neg negative sarResult d s⟩
  have answer : exec (.sar d v) s = .next (writeResultNz d (sarResult (s.readReg d) (value2Int v).toNat) s) :=
    shiftOp_of_nonneg nonneg sarResult d s
  obtain ⟨floor, above⟩ := sarResult_floor (s.readReg d) (value2Int v).toNat
  rw [← xInt_writeResultNz_same d (sarResult _ _) s] at floor above
  exact ⟨_, answer, floor, above, exec_nz_frame rfl answer rfl rfl⟩

/-- Settles O17: both shifts take the same count, and from 8 up no bit of Rd but its sign counts. -/
theorem shiftCountRule : Obligations.ShiftCountRule := by
  intro d v s
  refine ⟨fun negative => ⟨shiftOp_of_neg negative salResult d s, shiftOp_of_neg negative sarResult d s⟩, fun nonneg => ?_⟩
  refine ⟨_, _, shiftOp_of_nonneg nonneg salResult d s, shiftOp_of_nonneg nonneg sarResult d s, fun eight => ?_⟩
  have allOut : 8 ≤ (value2Int v).toNat := by omega
  rw [xInt_writeResultNz_same, xInt_writeResultNz_same, salResult_of_eight_le allOut]
  exact ⟨rfl, toInt_sarResult_of_eight_le allOut _⟩

/-- Settles O31: with `masked` the index is value2 modulo 64, which is the field read without sign. -/
theorem secondRegisterRule : Obligations.SecondRegisterRule := by
  refine ⟨fun mode v => ⟨fun nonneg => regIndex2_of_nonneg nonneg mode, ?_, ?_⟩, rfl⟩
  · rintro negative rfl
    obtain ⟨i, resolved, number⟩ := regIndex2_masked_of_neg negative
    have low := le_value2Int v
    have field := value2Int_emod v
    exact ⟨i, resolved, number, by omega, by omega⟩
  · rintro negative rfl
    exact regIndex2_fault_of_neg negative

/-- Settles O32: five instructions resolve a second register, which is the same index here; the others take no parameter. -/
theorem parameterMattersOnlyForNegativeIndex : Obligations.ParameterMattersOnlyForNegativeIndex := by
  intro i s mode indexNonneg
  change exec i (withMode mode s) = mapNext (withMode mode) (exec i s)
  cases i with
  | add d v => exact registerOp_withMode (addFlags_withMode mode) (indexNonneg d v (by simp)) addResult d s
  | sub d v => exact registerOp_withMode (subFlags_withMode mode) (indexNonneg d v (by simp)) subResult d s
  | mul d v => exact registerOp_withMode (fun _ _ => nzFlags_withMode mode) (indexNonneg d v (by simp)) mulResult d s
  | eor d v => exact registerOp_withMode (fun _ _ => nzFlags_withMode mode) (indexNonneg d v (by simp)) eorResult d s
  | br d v => exact exec_br_withMode (indexNonneg d v (by simp)) mode d s
  | sal d v => exact shiftOp_withMode salResult d v mode s
  | sar d v => exact shiftOp_withMode sarResult d v mode s
  | ldr d v => exact execLdr_withMode d v mode s
  | str d v => exact execStr_withMode d v mode s
  | beqz d v => exact exec_beqz_withMode d v mode s
  | movi | andi | reserved12 | reserved13 | reserved14 | reserved15 | sentinel => rfl

/-- Settles O33: an instruction that faults stands in a row of R173, and each row faults exactly under its condition. -/
theorem modelFaultsAreTheClosedList : Obligations.ModelFaultsAreTheClosedList := by
  intro i s
  refine ⟨fun e => ⟨fun faulted => ?_, ?_⟩, exec_ne_refused i s⟩
  · rcases instr_of_exec_fault faulted with ⟨d, v, row⟩ | ⟨d, v, row⟩ | ⟨d, v, row⟩
    · obtain ⟨⟨negative, isFault⟩, reason⟩ := (exec_eq_fault_iff_of_secondRegister row).mp faulted
      exact .inl ⟨d, v, row, negative, isFault, reason⟩
    · exact .inr (.inl ⟨d, v, row, (exec_eq_fault_iff_of_dataAccess row).mp faulted⟩)
    · exact .inr (.inr ⟨d, v, row, (exec_eq_fault_iff_of_shift row).mp faulted⟩)
  · rintro (⟨d, v, row, negative, isFault, reason⟩ | ⟨d, v, row, condition⟩ | ⟨d, v, row, condition⟩)
    · exact (exec_eq_fault_iff_of_secondRegister row).mpr ⟨⟨negative, isFault⟩, reason⟩
    · exact (exec_eq_fault_iff_of_dataAccess row).mpr condition
    · exact (exec_eq_fault_iff_of_shift row).mpr condition

/-- Settles O45: recording the fault writes the run status alone, on the state the front end left. -/
theorem modelFaultStopsTheTick : Obligations.ModelFaultStopsTheTick := by
  intro s r e running occupied faulted
  have sameFlags : FlagsSameBut [] s ((frontEnd s).recordFault e) :=
    ⟨fun f _ => (frontEnd_sameRegisters s).flag f, fun b _ => congrArg (·.getLsbD b) (frontEnd_sr s)⟩
  have sameData : DataSameBut [] s ((frontEnd s).recordFault e) := fun a _ =>
    memRead_readsMemories a s _ (frontEnd_im s) (frontEnd_dm s)
  exact ⟨_, step_of_exec_fault running occupied faulted, rfl, fun i _ => frontEnd_readReg s i, sameFlags, sameData,
    codeSame_of_im (frontEnd_im s), rfl, step_of_faulted rfl⟩

end Sys2Proof.Machine
